-- ==== Sys2Proof/Word.lean ====
section
/-! DEFINITION. The bit-vector types of the block.

A bit vector `b[0..n-1]` of the spec (00_scope.md R8, R9) is a `BitVec n` whose index 0 is the MOST significant bit:
`b[i]` is `b.getMsbD i`, `int(b)` is `b.toNat`, `a ‖ b` is `a ++ b`, and the literal `n'hX` is `0xX#n`. -/

namespace Sys2Proof

/-- The 32-bit command word (30_encoding.md R70); its bit 31 is the most significant. -/
abbrev Word := BitVec 32

/-- The contents of DIN or DOUT, 256 bits (10_state.md R24, R25). -/
abbrev Port := BitVec 256

/-- An element of GF(256), or one byte of a byte sequence (00_scope.md R9, R13). -/
abbrev Byte := BitVec 8

end Sys2Proof
end

