-- ==== Sys2Proof/Config.lean ====
section
/-! DEFINITION. What an instance of the block fixes (00_scope.md R7) and the values the spec leaves open. -/

namespace Sys2Proof

/-- `BPTC_ROW_POLICY` (00_scope.md R7, 41_bptc.md R209): when a parity-column BPTC decode commits a row correction. -/
inductive RowPolicy where
  /-- every row correction found is committed: the spec's default -/
  | unconditional
  /-- a row correction is committed only if every bit it flips lies in a column whose parity is violated -/
  | columnGated
deriving DecidableEq, Repr

/-- `BEST_EFFORT_OUTPUT` (00_scope.md R7, 60_exceptions.md R338, 93_implementation_defined.md U1): what DOUT holds after a
decode with `uncorrectable = 1`. -/
inductive BestEffort where
  /-- the value the decode rules state: the spec's default -/
  | asDecided
  /-- any value of the result's width -/
  | anyValue
deriving DecidableEq, Repr

/-- What a command does on an operand bit not written since reset (10_state.md R34; log 4). The spec gives both: what hardware
does, and what a model that checks host programs does. -/
inductive UnwrittenInput where
  /-- "On hardware a command reads whatever the bit holds" (10_state.md R34; 60_exceptions.md R350) -/
  | held
  /-- the spec's model-only fault `UnwrittenInput` (10_state.md R34; 60_exceptions.md R336, R350) -/
  | stops
deriving DecidableEq, Repr

/-- What is fixed for one machine: the parameters of an instance that change what a command does (00_scope.md R7) and, the
MODEL's own, the treatment of unwritten operand bits (log 4). No command and no access writes them. -/
structure Params where
  rowPolicy : RowPolicy
  bestEffort : BestEffort
  unwrittenInput : UnwrittenInput
deriving DecidableEq, Repr

/-- FREE VALUE (log 7). The payload of an uncorrectable decode under `BestEffort.anyValue`
(93_implementation_defined.md U1): one value for each command word and received vector, so that R32 and R353 hold. -/
opaque Config.bestEffortOutput : Word → Port → Port

/-- FREE VALUE (log 5). What a host read returns at a DIN bit not written since reset, which "has no defined value"
(10_state.md R34), where commands may not read such a bit either. -/
opaque Config.unwrittenDinBit : Nat → Bool

/-- FREE VALUE (log 15). `GF_LOG[0]`, "undefined and never read" (43_reed_solomon.md R292). -/
opaque Config.gfLogOfZero : Nat

end Sys2Proof
end

