-- ==== Sys2Proof/Syntax.lean ====
section
/-! DEFINITION. The commands of the block: one constructor per row of spec/opcode_table.json (30_encoding.md R71, R80).

A command word is OPC, FLG and LEN (R70) and is selected by OPC alone (R76); R336 gives the words with a bad FLG or a bad
LEN an effect of their own, so each constructor carries both fields. `sbEncRc` and `sbDecRc` are the two pseudo-command
rows, each ONE whole word (R80, log 8). -/

namespace Sys2Proof

/-- One command. `flg` is CMD[23:16], `len` is CMD[15:0] (10_state.md R23). -/
inductive Instr where
  /-- HAM743.PAR, OPC 0x10, operand 4 bits, result 3 bits: 40_block_codes.md R120 -/
  | ham743Par (flg : BitVec 8) (len : BitVec 16)
  /-- HAM743.ENC, OPC 0x11, operand 4 bits, result 7 bits: 40_block_codes.md R121 -/
  | ham743Enc (flg : BitVec 8) (len : BitVec 16)
  /-- HAM743.DEC, OPC 0x12, operand 7 bits, result 7 bits: 40_block_codes.md R122 -/
  | ham743Dec (flg : BitVec 8) (len : BitVec 16)
  /-- HAM1393.PAR, OPC 0x20, operand 9 bits, result 4 bits: 40_block_codes.md R123 -/
  | ham1393Par (flg : BitVec 8) (len : BitVec 16)
  /-- HAM1393.ENC, OPC 0x21, operand 9 bits, result 13 bits: 40_block_codes.md R124 -/
  | ham1393Enc (flg : BitVec 8) (len : BitVec 16)
  /-- HAM1393.DEC, OPC 0x22, operand 13 bits, result 13 bits: 40_block_codes.md R125 -/
  | ham1393Dec (flg : BitVec 8) (len : BitVec 16)
  /-- HAM15113.PAR, OPC 0x30, operand 11 bits, result 4 bits: 40_block_codes.md R126 -/
  | ham15113Par (flg : BitVec 8) (len : BitVec 16)
  /-- HAM15113.ENC, OPC 0x31, operand 11 bits, result 15 bits: 40_block_codes.md R127 -/
  | ham15113Enc (flg : BitVec 8) (len : BitVec 16)
  /-- HAM15113.DEC, OPC 0x32, operand 15 bits, result 15 bits: 40_block_codes.md R128 -/
  | ham15113Dec (flg : BitVec 8) (len : BitVec 16)
  /-- HAM16114.PAR, OPC 0x40, operand 11 bits, result 5 bits: 40_block_codes.md R129 -/
  | ham16114Par (flg : BitVec 8) (len : BitVec 16)
  /-- HAM16114.ENC, OPC 0x41, operand 11 bits, result 16 bits: 40_block_codes.md R130 -/
  | ham16114Enc (flg : BitVec 8) (len : BitVec 16)
  /-- HAM16114.DEC, OPC 0x42, operand 16 bits, result 16 bits: 40_block_codes.md R131 -/
  | ham16114Dec (flg : BitVec 8) (len : BitVec 16)
  /-- HAM17123.PAR, OPC 0x50, operand 12 bits, result 5 bits: 40_block_codes.md R132 -/
  | ham17123Par (flg : BitVec 8) (len : BitVec 16)
  /-- HAM17123.ENC, OPC 0x51, operand 12 bits, result 17 bits: 40_block_codes.md R133 -/
  | ham17123Enc (flg : BitVec 8) (len : BitVec 16)
  /-- HAM17123.DEC, OPC 0x52, operand 17 bits, result 17 bits: 40_block_codes.md R134 -/
  | ham17123Dec (flg : BitVec 8) (len : BitVec 16)
  /-- GOL2087.PAR, OPC 0x60, operand 8 bits, result 12 bits: 40_block_codes.md R135 -/
  | gol2087Par (flg : BitVec 8) (len : BitVec 16)
  /-- GOL2087.ENC, OPC 0x61, operand 8 bits, result 20 bits: 40_block_codes.md R136 -/
  | gol2087Enc (flg : BitVec 8) (len : BitVec 16)
  /-- GOL2087.DEC, OPC 0x62, operand 20 bits, result 20 bits: 40_block_codes.md R137 -/
  | gol2087Dec (flg : BitVec 8) (len : BitVec 16)
  /-- GOL23127.PAR, OPC 0x70, operand 12 bits, result 11 bits: 40_block_codes.md R138 -/
  | gol23127Par (flg : BitVec 8) (len : BitVec 16)
  /-- GOL23127.ENC, OPC 0x71, operand 12 bits, result 23 bits: 40_block_codes.md R139 -/
  | gol23127Enc (flg : BitVec 8) (len : BitVec 16)
  /-- GOL23127.DEC, OPC 0x72, operand 23 bits, result 23 bits: 40_block_codes.md R140 -/
  | gol23127Dec (flg : BitVec 8) (len : BitVec 16)
  /-- GOL24128.PAR, OPC 0x80, operand 12 bits, result 12 bits: 40_block_codes.md R141 -/
  | gol24128Par (flg : BitVec 8) (len : BitVec 16)
  /-- GOL24128.ENC, OPC 0x81, operand 12 bits, result 24 bits: 40_block_codes.md R142 -/
  | gol24128Enc (flg : BitVec 8) (len : BitVec 16)
  /-- GOL24128.DEC, OPC 0x82, operand 24 bits, result 24 bits: 40_block_codes.md R143 -/
  | gol24128Dec (flg : BitVec 8) (len : BitVec 16)
  /-- QR1676.PAR, OPC 0x90, operand 7 bits, result 9 bits: 40_block_codes.md R144 -/
  | qr1676Par (flg : BitVec 8) (len : BitVec 16)
  /-- QR1676.ENC, OPC 0x91, operand 7 bits, result 16 bits: 40_block_codes.md R145 -/
  | qr1676Enc (flg : BitVec 8) (len : BitVec 16)
  /-- QR1676.DEC, OPC 0x92, operand 16 bits, result 16 bits: 40_block_codes.md R146 -/
  | qr1676Dec (flg : BitVec 8) (len : BitVec 16)
  /-- BPTC196.ENC, OPC 0xA0, operand 96 bits, result 196 bits: 41_bptc.md R220 -/
  | bptc196Enc (flg : BitVec 8) (len : BitVec 16)
  /-- BPTC196.DEC, OPC 0xA1, operand 196 bits, result 96 bits: 41_bptc.md R221 -/
  | bptc196Dec (flg : BitVec 8) (len : BitVec 16)
  /-- CACH.ENC, OPC 0xA2, operand 36 bits, result 68 bits: 41_bptc.md R222 -/
  | cachEnc (flg : BitVec 8) (len : BitVec 16)
  /-- CACH.DEC, OPC 0xA3, operand 68 bits, result 36 bits: 41_bptc.md R223 -/
  | cachDec (flg : BitVec 8) (len : BitVec 16)
  /-- ELC.ENC, OPC 0xA4, operand 77 bits, result 128 bits: 41_bptc.md R224 -/
  | elcEnc (flg : BitVec 8) (len : BitVec 16)
  /-- ELC.DEC, OPC 0xA5, operand 128 bits, result 77 bits: 41_bptc.md R225 -/
  | elcDec (flg : BitVec 8) (len : BitVec 16)
  /-- SB.ENC, OPC 0xA6, operand 11 bits, result 32 bits: 41_bptc.md R226 -/
  | sbEnc (flg : BitVec 8) (len : BitVec 16)
  /-- SB.DEC, OPC 0xA7, operand 32 bits, result 11 bits: 41_bptc.md R227 -/
  | sbDec (flg : BitVec 8) (len : BitVec 16)
  /-- TRL34.ENC, OPC 0xB0, operand 144 bits, result 196 bits: 42_trellis.md R275 -/
  | trl34Enc (flg : BitVec 8) (len : BitVec 16)
  /-- TRL34.DEC, OPC 0xB1, operand 196 bits, result 144 bits: 42_trellis.md R276 -/
  | trl34Dec (flg : BitVec 8) (len : BitVec 16)
  /-- RS129.ENC, OPC 0xC0, operand 72 bits, result 96 bits: 43_reed_solomon.md R305 -/
  | rs129Enc (flg : BitVec 8) (len : BitVec 16)
  /-- RS129.SYND, OPC 0xC1, operand 96 bits, result 24 bits: 43_reed_solomon.md R306 -/
  | rs129Synd (flg : BitVec 8) (len : BitVec 16)
  /-- RS129.CHECK, OPC 0xC2, operand 96 bits, result 1 bits: 43_reed_solomon.md R307 -/
  | rs129Check (flg : BitVec 8) (len : BitVec 16)
  /-- RS129.CORR, OPC 0xC3, operand 120 bits, result 96 bits: 43_reed_solomon.md R308 -/
  | rs129Corr (flg : BitVec 8) (len : BitVec 16)
  /-- SLC.RESET, OPC 0xD0, operand 0 bits, result 0 bits: 41_bptc.md R228 -/
  | slcReset (flg : BitVec 8) (len : BitVec 16)
  /-- SLC.PUSH, OPC 0xD1, operand 17 bits, result 0 or 36 bits: 41_bptc.md R229 -/
  | slcPush (flg : BitVec 8) (len : BitVec 16)
  /-- SB.ENC.RC, the word 0xA601000B: 30_encoding.md R80, 41_bptc.md R226 -/
  | sbEncRc
  /-- SB.DEC.RC, the word 0xA7010020: 30_encoding.md R80, 41_bptc.md R227 -/
  | sbDecRc
deriving DecidableEq, Repr

/-- CMD[23:16] of the command word (30_encoding.md R70). -/
def Instr.flags : Instr → BitVec 8
  | .ham743Par flg _ => flg
  | .ham743Enc flg _ => flg
  | .ham743Dec flg _ => flg
  | .ham1393Par flg _ => flg
  | .ham1393Enc flg _ => flg
  | .ham1393Dec flg _ => flg
  | .ham15113Par flg _ => flg
  | .ham15113Enc flg _ => flg
  | .ham15113Dec flg _ => flg
  | .ham16114Par flg _ => flg
  | .ham16114Enc flg _ => flg
  | .ham16114Dec flg _ => flg
  | .ham17123Par flg _ => flg
  | .ham17123Enc flg _ => flg
  | .ham17123Dec flg _ => flg
  | .gol2087Par flg _ => flg
  | .gol2087Enc flg _ => flg
  | .gol2087Dec flg _ => flg
  | .gol23127Par flg _ => flg
  | .gol23127Enc flg _ => flg
  | .gol23127Dec flg _ => flg
  | .gol24128Par flg _ => flg
  | .gol24128Enc flg _ => flg
  | .gol24128Dec flg _ => flg
  | .qr1676Par flg _ => flg
  | .qr1676Enc flg _ => flg
  | .qr1676Dec flg _ => flg
  | .bptc196Enc flg _ => flg
  | .bptc196Dec flg _ => flg
  | .cachEnc flg _ => flg
  | .cachDec flg _ => flg
  | .elcEnc flg _ => flg
  | .elcDec flg _ => flg
  | .sbEnc flg _ => flg
  | .sbDec flg _ => flg
  | .trl34Enc flg _ => flg
  | .trl34Dec flg _ => flg
  | .rs129Enc flg _ => flg
  | .rs129Synd flg _ => flg
  | .rs129Check flg _ => flg
  | .rs129Corr flg _ => flg
  | .slcReset flg _ => flg
  | .slcPush flg _ => flg
  | .sbEncRc => 1#8
  | .sbDecRc => 1#8

/-- CMD[15:0] of the command word (30_encoding.md R70). -/
def Instr.length : Instr → BitVec 16
  | .ham743Par _ len => len
  | .ham743Enc _ len => len
  | .ham743Dec _ len => len
  | .ham1393Par _ len => len
  | .ham1393Enc _ len => len
  | .ham1393Dec _ len => len
  | .ham15113Par _ len => len
  | .ham15113Enc _ len => len
  | .ham15113Dec _ len => len
  | .ham16114Par _ len => len
  | .ham16114Enc _ len => len
  | .ham16114Dec _ len => len
  | .ham17123Par _ len => len
  | .ham17123Enc _ len => len
  | .ham17123Dec _ len => len
  | .gol2087Par _ len => len
  | .gol2087Enc _ len => len
  | .gol2087Dec _ len => len
  | .gol23127Par _ len => len
  | .gol23127Enc _ len => len
  | .gol23127Dec _ len => len
  | .gol24128Par _ len => len
  | .gol24128Enc _ len => len
  | .gol24128Dec _ len => len
  | .qr1676Par _ len => len
  | .qr1676Enc _ len => len
  | .qr1676Dec _ len => len
  | .bptc196Enc _ len => len
  | .bptc196Dec _ len => len
  | .cachEnc _ len => len
  | .cachDec _ len => len
  | .elcEnc _ len => len
  | .elcDec _ len => len
  | .sbEnc _ len => len
  | .sbDec _ len => len
  | .trl34Enc _ len => len
  | .trl34Dec _ len => len
  | .rs129Enc _ len => len
  | .rs129Synd _ len => len
  | .rs129Check _ len => len
  | .rs129Corr _ len => len
  | .slcReset _ len => len
  | .slcPush _ len => len
  | .sbEncRc => 11#16
  | .sbDecRc => 32#16

end Sys2Proof
end

