-- ==== Sys2Proof/WellFormed.lean ====
section
/-! DEFINITION. When a command word is legal: FLG and LEN as 30_encoding.md R71 to R73 and R77 require them. -/

namespace Sys2Proof

/-- The operand length the command requires, in bits (30_encoding.md R71, column LEN). -/
def Instr.requiredLen : Instr → Nat
  | .ham743Par _ _ => 4
  | .ham743Enc _ _ => 4
  | .ham743Dec _ _ => 7
  | .ham1393Par _ _ => 9
  | .ham1393Enc _ _ => 9
  | .ham1393Dec _ _ => 13
  | .ham15113Par _ _ => 11
  | .ham15113Enc _ _ => 11
  | .ham15113Dec _ _ => 15
  | .ham16114Par _ _ => 11
  | .ham16114Enc _ _ => 11
  | .ham16114Dec _ _ => 16
  | .ham17123Par _ _ => 12
  | .ham17123Enc _ _ => 12
  | .ham17123Dec _ _ => 17
  | .gol2087Par _ _ => 8
  | .gol2087Enc _ _ => 8
  | .gol2087Dec _ _ => 20
  | .gol23127Par _ _ => 12
  | .gol23127Enc _ _ => 12
  | .gol23127Dec _ _ => 23
  | .gol24128Par _ _ => 12
  | .gol24128Enc _ _ => 12
  | .gol24128Dec _ _ => 24
  | .qr1676Par _ _ => 7
  | .qr1676Enc _ _ => 7
  | .qr1676Dec _ _ => 16
  | .bptc196Enc _ _ => 96
  | .bptc196Dec _ _ => 196
  | .cachEnc _ _ => 36
  | .cachDec _ _ => 68
  | .elcEnc _ _ => 77
  | .elcDec _ _ => 128
  | .sbEnc _ _ => 11
  | .sbDec _ _ => 32
  | .trl34Enc _ _ => 144
  | .trl34Dec _ _ => 196
  | .rs129Enc _ _ => 72
  | .rs129Synd _ _ => 96
  | .rs129Check _ _ => 96
  | .rs129Corr _ _ => 120
  | .slcReset _ _ => 0
  | .slcPush _ _ => 17
  | .sbEncRc => 11
  | .sbDecRc => 32

/-- The command has the operand `FLG.ODD` (30_encoding.md R72): SB.ENC and SB.DEC, and their `.RC` spellings. -/
def Instr.hasOdd : Instr → Bool
  | .ham743Par _ _ => false
  | .ham743Enc _ _ => false
  | .ham743Dec _ _ => false
  | .ham1393Par _ _ => false
  | .ham1393Enc _ _ => false
  | .ham1393Dec _ _ => false
  | .ham15113Par _ _ => false
  | .ham15113Enc _ _ => false
  | .ham15113Dec _ _ => false
  | .ham16114Par _ _ => false
  | .ham16114Enc _ _ => false
  | .ham16114Dec _ _ => false
  | .ham17123Par _ _ => false
  | .ham17123Enc _ _ => false
  | .ham17123Dec _ _ => false
  | .gol2087Par _ _ => false
  | .gol2087Enc _ _ => false
  | .gol2087Dec _ _ => false
  | .gol23127Par _ _ => false
  | .gol23127Enc _ _ => false
  | .gol23127Dec _ _ => false
  | .gol24128Par _ _ => false
  | .gol24128Enc _ _ => false
  | .gol24128Dec _ _ => false
  | .qr1676Par _ _ => false
  | .qr1676Enc _ _ => false
  | .qr1676Dec _ _ => false
  | .bptc196Enc _ _ => false
  | .bptc196Dec _ _ => false
  | .cachEnc _ _ => false
  | .cachDec _ _ => false
  | .elcEnc _ _ => false
  | .elcDec _ _ => false
  | .sbEnc _ _ => true
  | .sbDec _ _ => true
  | .trl34Enc _ _ => false
  | .trl34Dec _ _ => false
  | .rs129Enc _ _ => false
  | .rs129Synd _ _ => false
  | .rs129Check _ _ => false
  | .rs129Corr _ _ => false
  | .slcReset _ _ => false
  | .slcPush _ _ => false
  | .sbEncRc => true
  | .sbDecRc => true

/-- FLG holds no reserved bit (30_encoding.md R72, R77; 60_exceptions.md R333): FLG[7:1] is 0, and FLG[0] is 0 unless the
command has the operand ODD. -/
def Instr.flagsLegal (i : Instr) : Bool :=
  i.flags == 0#8 || (i.hasOdd && i.flags == 1#8)

/-- LEN is the required length (30_encoding.md R73; 60_exceptions.md R335). -/
def Instr.lengthLegal (i : Instr) : Bool :=
  i.length.toNat == i.requiredLen

/-- The spelling the decoder gives: the words 0xA601000B and 0xA7010020 are `sbEncRc` and `sbDecRc` (log 8). -/
def Instr.canonical : Instr → Bool
  | .sbEnc flg len => !(flg == 1#8 && len == 11#16)
  | .sbDec flg len => !(flg == 1#8 && len == 32#16)
  | .ham743Par _ _ => true
  | .ham743Enc _ _ => true
  | .ham743Dec _ _ => true
  | .ham1393Par _ _ => true
  | .ham1393Enc _ _ => true
  | .ham1393Dec _ _ => true
  | .ham15113Par _ _ => true
  | .ham15113Enc _ _ => true
  | .ham15113Dec _ _ => true
  | .ham16114Par _ _ => true
  | .ham16114Enc _ _ => true
  | .ham16114Dec _ _ => true
  | .ham17123Par _ _ => true
  | .ham17123Enc _ _ => true
  | .ham17123Dec _ _ => true
  | .gol2087Par _ _ => true
  | .gol2087Enc _ _ => true
  | .gol2087Dec _ _ => true
  | .gol23127Par _ _ => true
  | .gol23127Enc _ _ => true
  | .gol23127Dec _ _ => true
  | .gol24128Par _ _ => true
  | .gol24128Enc _ _ => true
  | .gol24128Dec _ _ => true
  | .qr1676Par _ _ => true
  | .qr1676Enc _ _ => true
  | .qr1676Dec _ _ => true
  | .bptc196Enc _ _ => true
  | .bptc196Dec _ _ => true
  | .cachEnc _ _ => true
  | .cachDec _ _ => true
  | .elcEnc _ _ => true
  | .elcDec _ _ => true
  | .trl34Enc _ _ => true
  | .trl34Dec _ _ => true
  | .rs129Enc _ _ => true
  | .rs129Synd _ _ => true
  | .rs129Check _ _ => true
  | .rs129Corr _ _ => true
  | .slcReset _ _ => true
  | .slcPush _ _ => true
  | .sbEncRc => true
  | .sbDecRc => true

/-- A legal command in the decoder's spelling. -/
def Instr.wellFormed (i : Instr) : Bool :=
  i.flagsLegal && i.lengthLegal && i.canonical

end Sys2Proof
end

