-- ==== Sys2Proof/Decode.lean ====
section
/-! DEFINITION. The decoder, total on every 32-bit word and rejecting by name, and the encoder after it. -/

namespace Sys2Proof

/-- Why a command word is no command. -/
inductive DecodeError where
  /-- OPC is not in the table of 30_encoding.md R71 (R77): the word ends with the status ILLEGAL_OPCODE
  (60_exceptions.md R332) -/
  | illegalOpcode (opc : BitVec 8)
deriving DecidableEq, Repr

/-- `OPC = CMD[31:24]` (10_state.md R23). -/
def wordOpc (w : Word) : BitVec 8 := w.extractLsb' 24 8

/-- `FLG = CMD[23:16]` (10_state.md R23). -/
def wordFlags (w : Word) : BitVec 8 := w.extractLsb' 16 8

/-- `LEN = CMD[15:0]` (10_state.md R23). -/
def wordLen (w : Word) : BitVec 16 := w.extractLsb' 0 16

/-- The rows of 30_encoding.md R71: the command that an operation code, by exact match, selects (R76). The words 0xA601000B
and 0xA7010020 are spelled as the pseudo-command rows of R80 (log 8). -/
def decodeOpc (opc flg : BitVec 8) (len : BitVec 16) : Option Instr :=
  match opc with
  | 0x10#8 => some (.ham743Par flg len)
  | 0x11#8 => some (.ham743Enc flg len)
  | 0x12#8 => some (.ham743Dec flg len)
  | 0x20#8 => some (.ham1393Par flg len)
  | 0x21#8 => some (.ham1393Enc flg len)
  | 0x22#8 => some (.ham1393Dec flg len)
  | 0x30#8 => some (.ham15113Par flg len)
  | 0x31#8 => some (.ham15113Enc flg len)
  | 0x32#8 => some (.ham15113Dec flg len)
  | 0x40#8 => some (.ham16114Par flg len)
  | 0x41#8 => some (.ham16114Enc flg len)
  | 0x42#8 => some (.ham16114Dec flg len)
  | 0x50#8 => some (.ham17123Par flg len)
  | 0x51#8 => some (.ham17123Enc flg len)
  | 0x52#8 => some (.ham17123Dec flg len)
  | 0x60#8 => some (.gol2087Par flg len)
  | 0x61#8 => some (.gol2087Enc flg len)
  | 0x62#8 => some (.gol2087Dec flg len)
  | 0x70#8 => some (.gol23127Par flg len)
  | 0x71#8 => some (.gol23127Enc flg len)
  | 0x72#8 => some (.gol23127Dec flg len)
  | 0x80#8 => some (.gol24128Par flg len)
  | 0x81#8 => some (.gol24128Enc flg len)
  | 0x82#8 => some (.gol24128Dec flg len)
  | 0x90#8 => some (.qr1676Par flg len)
  | 0x91#8 => some (.qr1676Enc flg len)
  | 0x92#8 => some (.qr1676Dec flg len)
  | 0xA0#8 => some (.bptc196Enc flg len)
  | 0xA1#8 => some (.bptc196Dec flg len)
  | 0xA2#8 => some (.cachEnc flg len)
  | 0xA3#8 => some (.cachDec flg len)
  | 0xA4#8 => some (.elcEnc flg len)
  | 0xA5#8 => some (.elcDec flg len)
  | 0xA6#8 => some (if flg == 1#8 && len == 11#16 then .sbEncRc else .sbEnc flg len)
  | 0xA7#8 => some (if flg == 1#8 && len == 32#16 then .sbDecRc else .sbDec flg len)
  | 0xB0#8 => some (.trl34Enc flg len)
  | 0xB1#8 => some (.trl34Dec flg len)
  | 0xC0#8 => some (.rs129Enc flg len)
  | 0xC1#8 => some (.rs129Synd flg len)
  | 0xC2#8 => some (.rs129Check flg len)
  | 0xC3#8 => some (.rs129Corr flg len)
  | 0xD0#8 => some (.slcReset flg len)
  | 0xD1#8 => some (.slcPush flg len)
  | _ => none

/-- Decoding a command word (30_encoding.md R76): OPC alone selects; a reserved OPC is refused by name. -/
def decode (w : Word) : Except DecodeError Instr :=
  match decodeOpc (wordOpc w) (wordFlags w) (wordLen w) with
  | some i => .ok i
  | none => .error (.illegalOpcode (wordOpc w))

/-- The operation code of each command (30_encoding.md R71). -/
def Instr.opcode : Instr → BitVec 8
  | .ham743Par _ _ => 0x10#8
  | .ham743Enc _ _ => 0x11#8
  | .ham743Dec _ _ => 0x12#8
  | .ham1393Par _ _ => 0x20#8
  | .ham1393Enc _ _ => 0x21#8
  | .ham1393Dec _ _ => 0x22#8
  | .ham15113Par _ _ => 0x30#8
  | .ham15113Enc _ _ => 0x31#8
  | .ham15113Dec _ _ => 0x32#8
  | .ham16114Par _ _ => 0x40#8
  | .ham16114Enc _ _ => 0x41#8
  | .ham16114Dec _ _ => 0x42#8
  | .ham17123Par _ _ => 0x50#8
  | .ham17123Enc _ _ => 0x51#8
  | .ham17123Dec _ _ => 0x52#8
  | .gol2087Par _ _ => 0x60#8
  | .gol2087Enc _ _ => 0x61#8
  | .gol2087Dec _ _ => 0x62#8
  | .gol23127Par _ _ => 0x70#8
  | .gol23127Enc _ _ => 0x71#8
  | .gol23127Dec _ _ => 0x72#8
  | .gol24128Par _ _ => 0x80#8
  | .gol24128Enc _ _ => 0x81#8
  | .gol24128Dec _ _ => 0x82#8
  | .qr1676Par _ _ => 0x90#8
  | .qr1676Enc _ _ => 0x91#8
  | .qr1676Dec _ _ => 0x92#8
  | .bptc196Enc _ _ => 0xA0#8
  | .bptc196Dec _ _ => 0xA1#8
  | .cachEnc _ _ => 0xA2#8
  | .cachDec _ _ => 0xA3#8
  | .elcEnc _ _ => 0xA4#8
  | .elcDec _ _ => 0xA5#8
  | .sbEnc _ _ => 0xA6#8
  | .sbDec _ _ => 0xA7#8
  | .trl34Enc _ _ => 0xB0#8
  | .trl34Dec _ _ => 0xB1#8
  | .rs129Enc _ _ => 0xC0#8
  | .rs129Synd _ _ => 0xC1#8
  | .rs129Check _ _ => 0xC2#8
  | .rs129Corr _ _ => 0xC3#8
  | .slcReset _ _ => 0xD0#8
  | .slcPush _ _ => 0xD1#8
  | .sbEncRc => 0xA6#8
  | .sbDecRc => 0xA7#8

/-- The word of a command: `(OPC << 24) | (FLG << 16) | LEN` (30_encoding.md R79). -/
def encode (i : Instr) : Word :=
  i.opcode.setWidth 32 <<< 24 ||| i.flags.setWidth 32 <<< 16 ||| i.length.setWidth 32

/-- What `decode` reads from the number `w` of `nbits` bits, its bit 0 the least significant bit of the command word. Bits
above 31 belong to the operand, which is no part of the word (30_encoding.md R70). -/
def decodeTableWord (nbits w : Nat) : Option Instr :=
  match decode (BitVec.ofNat 32 (w % 2 ^ nbits)) with
  | .ok i => some i
  | .error _ => none

end Sys2Proof
end

