-- ==== Sys2Proof/Machine/Bits.lean ====
section
/-! DEFINITION. Bit vectors by index: the operators of 00_scope.md R8 to R10. Index 0 is the most significant bit. -/

namespace Sys2Proof.Machine

/-- The vector `b[0..n-1]` with `b[i] = f i`. -/
def ofBits : (n : Nat) → (Nat → Bool) → BitVec n
  | 0, _ => 0#0
  | n + 1, f => (ofBits n f).concat (f n)

/-- The slice `b[first .. first+len-1]` (00_scope.md R10); an index past the end reads 0. -/
def slice {n : Nat} (b : BitVec n) (first len : Nat) : BitVec len :=
  ofBits len fun j => b.getMsbD (first + j)

/-- The slice `b[first .. first+len-1]` overwritten with `v`. -/
def setSlice {n len : Nat} (b : BitVec n) (first : Nat) (v : BitVec len) : BitVec n :=
  ofBits n fun p => if first ≤ p ∧ p < first + len then v.getMsbD (p - first) else b.getMsbD p

/-- Hamming weight, `wt` of 00_scope.md R10. -/
def weight {n : Nat} (b : BitVec n) : Nat :=
  (List.range n).countP fun i => b.getMsbD i

/-- `⊕` of the bits `d[i]` for `i` in the list (00_scope.md R8). -/
def xorBits {n : Nat} (d : BitVec n) (is : List Nat) : Bool :=
  is.foldr (fun i acc => d.getMsbD i ^^ acc) false

/-- The bits of `v` read through an index table: `out[j] = v[idx[j]]`. -/
def gather {n : Nat} (idx : List Nat) (v : BitVec n) : BitVec n :=
  ofBits n fun j => v.getMsbD (idx.getD j n)

/-- The bits of `v` written through an index table: `out[idx[j]] = v[j]`. -/
def scatter {n : Nat} (idx : List Nat) (v : BitVec n) : BitVec n :=
  ofBits n fun p => v.getMsbD (idx.idxOf p)

/-- Byte `i` of a byte sequence, `B[i] = int(b[8i .. 8i+7])` (20_memory.md R51). -/
def byteAt {n : Nat} (b : BitVec n) (i : Nat) : Byte := slice b (8 * i) 8

end Sys2Proof.Machine
end

