-- ==== Sys2Proof/Machine/State.lean ====
section
/-! DEFINITION. The state of the block, its reset value, and how a step can stop. -/

namespace Sys2Proof.Machine

/-- The registers a host may read but not write (10_state.md R22; 20_memory.md R56). -/
inductive ResultReg where
  | dout | outLen | status | resBits | resErr | resUnc | slcCnt
deriving DecidableEq, Repr

/-- The nine host registers (10_state.md R22). SLC_BUF and the ROM tables are not among them. -/
inductive HostReg where
  | cmd | din
  | result (r : ResultReg)
deriving DecidableEq, Repr

/-- One access from outside the block: the host's (20_memory.md R56) or the platform's (70_reset_and_hazards.md R360). -/
inductive HostAccess where
  /-- the host writes CMD, which performs the command (10_state.md R35) -/
  | writeCmd (w : Word)
  /-- the host writes the bits of DIN that `mask` selects, with the bits of `value` (log 10) -/
  | writeDin (mask value : Port)
  /-- the host writes a read-only register: ignored (20_memory.md R56) -/
  | writeResult (r : ResultReg) (value : Port)
  /-- the host reads a register: no side effect (20_memory.md R56); the value is `hostRead` -/
  | read (r : HostReg)
  /-- the platform asserts reset (70_reset_and_hazards.md R360; log 11) -/
  | reset
deriving DecidableEq, Repr

/-- The whole state (10_state.md R22, R28, R33). The working state of a command (R29) is local to its meaning; the ROM
tables (R30) are constants. -/
structure State where
  /-- CMD: the last command word written (R23) -/
  cmd : Word
  /-- DIN: the input bits; a bit counts only where it is marked written (R24) -/
  din : Port
  /-- the written mark of every DIN bit (R33, R34) -/
  dinWritten : Port
  /-- DOUT: the output bits (R25) -/
  dout : Port
  /-- OUT_LEN: how many bits of DOUT are valid (R25) -/
  outLen : BitVec 16
  /-- STATUS: the outcome code of the last command (R27; 60_exceptions.md R331) -/
  status : BitVec 8
  /-- RES_BITS: bits_checked (R26) -/
  resBits : BitVec 16
  /-- RES_ERR: errors_corrected (R26) -/
  resErr : BitVec 16
  /-- RES_UNC: uncorrectable (R26) -/
  resUnc : Bool
  /-- SLC_CNT: Short-LC fragments held (R28) -/
  slcCnt : BitVec 3
  /-- SLC_BUF: the Short-LC fragment buffer (R28) -/
  slcBuf : BitVec 68
  /-- the parameters of this instance (00_scope.md R7) and the treatment of unwritten operand bits (log 4); no command,
  access or reset changes them -/
  params : Params
  /-- the MODEL's own: the accesses still to come, oldest first (log 1) -/
  inbox : List HostAccess
deriving DecidableEq, Repr

/-- Why a step stops with a fault. -/
inductive Fault where
  /-- `UnwrittenInput` (60_exceptions.md R350): raised by every command with an operand, only under `UnwrittenInput.stops`,
  when the checks 1 to 3 of R336 pass and DIN[first] is the first bit of the operand not written since reset. `left` is the
  state it leaves: CMD holds the word, nothing else has changed (90_conflicts.md C10). Safe: hardware goes on with whatever
  the bit holds, and `UnwrittenInput.held` says so. -/
  | unwrittenInput (first : Nat) (left : State)
deriving DecidableEq, Repr

/-- Why a step is refused. No command of the table is. -/
inductive Refusal where
  /-- raised by `exec` for a command that has no meaning yet. Safe: nothing is claimed of it. -/
  | notModelled (mnemonic : String)
deriving DecidableEq, Repr

/-- The block right after reset (10_state.md R33; 70_reset_and_hazards.md R360), with the default parameters of
00_scope.md R7, and as hardware on unwritten operand bits (log 4). What DIN holds is DESIGN CHOICE 0 (log 3): the spec gives no
value; all bits are marked unwritten. -/
def State.reset : State where
  cmd := 0#32
  din := 0#256
  dinWritten := 0#256
  dout := 0#256
  outLen := 0#16
  status := 0x00#8
  resBits := 0#16
  resErr := 0#16
  resUnc := false
  slcCnt := 0#3
  slcBuf := 0#68
  params := { rowPolicy := .unconditional, bestEffort := .asDecided, unwrittenInput := .held }
  inbox := []

end Sys2Proof.Machine
end

