-- ==== Sys2Proof/Machine/Flags.lean ====
section
/-! DEFINITION. The outcome of a command: status codes (60_exceptions.md R331), the FEC outcome record (00_scope.md R12), and
the checks of FLG and LEN (60_exceptions.md R333, R335). -/

namespace Sys2Proof.Machine

/-- The status codes (60_exceptions.md R331). -/
inductive Status where
  | idle | ok | slcPending | lengthMismatch | illegalOpcode | reservedFlags
deriving DecidableEq, Repr

/-- The 8-bit value of each status (60_exceptions.md R331). -/
def statusCode : Status → BitVec 8
  | .idle => 0x00#8
  | .ok => 0x01#8
  | .slcPending => 0x02#8
  | .lengthMismatch => 0x80#8
  | .illegalOpcode => 0x81#8
  | .reservedFlags => 0x82#8

/-- `{bits_checked, errors_corrected, uncorrectable}` (00_scope.md R12; 10_state.md R26). -/
structure FecResult where
  bitsChecked : Nat
  errorsCorrected : Nat
  uncorrectable : Bool
deriving DecidableEq, Repr

/-- The record of every command that decodes nothing: `(0, 0, 0)` (10_state.md R26). -/
def noFec : FecResult := ⟨0, 0, false⟩

/-- Check 2 of 60_exceptions.md R336 fails: FLG[7:1] ≠ 0, or FLG[0] = 1 in a command without the operand ODD (R333). -/
def flagsReserved (oddAllowed : Bool) (flg : BitVec 8) : Bool :=
  flg.extractLsb' 1 7 != 0#7 || (flg.getLsbD 0 && !oddAllowed)

/-- Check 3 of 60_exceptions.md R336 fails: LEN is not exactly the required length (R335). -/
def lengthWrong (required : Nat) (len : BitVec 16) : Bool :=
  len.toNat != required

end Sys2Proof.Machine
end

