-- ==== Sys2Proof/Machine/BlockCode.lean ====
section
/-! DEFINITION. The block codes (40_block_codes.md): parity, encoding, syndrome, error table and decoding, once for all nine,
and the check equations of each. -/

namespace Sys2Proof.Machine

/-- A systematic code with `k` data bits and `r = n−k` check bits (40_block_codes.md R101): check bit `j` is the XOR of the
data bits listed in `checks[j]` (R108 to R116); `radius` is t. -/
structure BlockCode (k r : Nat) where
  checks : List (List Nat)
  radius : Nat
deriving DecidableEq, Repr

/-- `PAR_C(d)` (40_block_codes.md R100, R108 to R116). -/
def parity {k r : Nat} (C : BlockCode k r) (d : BitVec k) : BitVec r :=
  ofBits r fun j => xorBits d (C.checks.getD j [])

/-- `ENC_C(d) = d ‖ PAR_C(d)` (40_block_codes.md R103). -/
def encodeBlock {k r : Nat} (C : BlockCode k r) (d : BitVec k) : BitVec (k + r) :=
  d ++ parity C d

/-- `SYN_C(c)`: received check bits ⊕ recomputed check bits, check bit 0 most significant (40_block_codes.md R104). For
Golay(24,12,8) R104 gives the last syndrome bit a second, different form, the parity of the whole received word; that the
first form is taken is DEDUCED, the model's choice between the two, and no command shows it (log 21). -/
def syndrome {k r : Nat} (C : BlockCode k r) (c : BitVec (k + r)) : BitVec r :=
  slice c k r ^^^ parity C (slice c 0 k)

/-- The `n`-bit vectors of weight exactly `w`. -/
def patternsOfWeight : (n w : Nat) → List (BitVec n)
  | n, 0 => [0#n]
  | 0, _ + 1 => []
  | n + 1, w + 1 =>
    (patternsOfWeight n w).map (BitVec.cons true) ++ (patternsOfWeight n (w + 1)).map (BitVec.cons false)

/-- The `n`-bit error patterns of weight at most `t`, lightest first (40_block_codes.md R105). -/
def patternsUpTo (n t : Nat) : List (BitVec n) :=
  (List.range (t + 1)).flatMap (patternsOfWeight n)

/-- `ROM_SYN_C[s]` (40_block_codes.md R105): the error pattern of weight at most t with syndrome `s`, `none` for the
sentinel NONE. R119 lets a model compute the entry by any means; this one searches the patterns. -/
def errorPattern {k r : Nat} (C : BlockCode k r) (s : BitVec r) : Option (BitVec (k + r)) :=
  (patternsUpTo (k + r) C.radius).find? fun e => syndrome C e == s

/-- `DEC_C(c)` (40_block_codes.md R106, R107): the whole corrected word and the outcome; the input unchanged when the
syndrome has no entry. -/
def decodeBlock {k r : Nat} (C : BlockCode k r) (c : BitVec (k + r)) : BitVec (k + r) × FecResult :=
  if syndrome C c = 0#r then (c, ⟨k + r, 0, false⟩)
  else
    match errorPattern C (syndrome C c) with
    | some e => (c ^^^ e, ⟨k + r, weight e, false⟩)
    | none => (c, ⟨k + r, 0, true⟩)

/-- Hamming(7,4,3) (40_block_codes.md R108). -/
def h743 : BlockCode 4 3 where
  checks := [[0, 1, 2], [1, 2, 3], [0, 1, 3]]
  radius := 1

/-- Hamming(13,9,3) (40_block_codes.md R109). -/
def h1393 : BlockCode 9 4 where
  checks := [[0, 1, 3, 5, 6], [0, 1, 2, 4, 6, 7], [0, 1, 2, 3, 5, 7, 8], [0, 2, 4, 5, 8]]
  radius := 1

/-- Hamming(15,11,3) (40_block_codes.md R110). -/
def h15113 : BlockCode 11 4 where
  checks := [[0, 1, 2, 3, 5, 7, 8], [1, 2, 3, 4, 6, 8, 9], [2, 3, 4, 5, 7, 9, 10], [0, 1, 2, 4, 6, 7, 10]]
  radius := 1

/-- Hamming(16,11,4): the checks of R110, then overall even parity (40_block_codes.md R111). -/
def h16114 : BlockCode 11 5 where
  checks := h15113.checks ++ [[0, 2, 5, 6, 8, 9, 10]]
  radius := 1

/-- Hamming(17,12,3) (40_block_codes.md R112). -/
def h17123 : BlockCode 12 5 where
  checks := [[0, 1, 2, 3, 6, 7, 9], [0, 1, 2, 3, 4, 7, 8, 10], [1, 2, 3, 4, 5, 8, 9, 11], [0, 1, 4, 5, 7, 10],
    [0, 1, 2, 5, 6, 8, 11]]
  radius := 1

/-- Golay(20,8,7) (40_block_codes.md R113). -/
def g2087 : BlockCode 8 12 where
  checks := [[1, 4, 5, 6, 7], [1, 2, 4], [0, 2, 3, 5], [0, 1, 3, 4, 6], [0, 1, 2, 4, 5, 7], [0, 2, 3, 4, 7],
    [3, 6, 7], [0, 1, 5, 6], [0, 1, 2, 6, 7], [2, 3, 4, 5, 6], [0, 3, 4, 5, 6, 7], [1, 2, 3, 5, 7]]
  radius := 3

/-- Golay(23,12,7) (40_block_codes.md R114). -/
def g23127 : BlockCode 12 11 where
  checks := [[0, 2, 5, 8, 9, 10, 11], [0, 1, 2, 3, 5, 6, 8], [1, 2, 3, 4, 6, 7, 9], [2, 3, 4, 5, 7, 8, 10],
    [3, 4, 5, 6, 8, 9, 11], [0, 2, 4, 6, 7, 8, 11], [0, 1, 2, 3, 7, 10, 11], [0, 1, 3, 4, 5, 9, 10],
    [1, 2, 4, 5, 6, 10, 11], [0, 3, 6, 7, 8, 9, 10], [1, 4, 7, 8, 9, 10, 11]]
  radius := 3

/-- Golay(24,12,8): the checks of R114, then overall even parity (40_block_codes.md R115). -/
def g24128 : BlockCode 12 12 where
  checks := g23127.checks ++ [[0, 1, 5, 6, 7, 9, 11]]
  radius := 3

/-- QR(16,7,6) (40_block_codes.md R116). -/
def qr1676 : BlockCode 7 9 where
  checks := [[1, 2, 3, 4], [2, 3, 4, 5], [0, 3, 4, 5, 6], [2, 3, 5, 6], [1, 2, 6], [0, 1, 4], [0, 1, 2, 5],
    [0, 1, 2, 3, 6], [0, 2, 4, 5, 6]]
  radius := 2

end Sys2Proof.Machine
end

