-- ==== Sys2Proof/Machine/BptcEngine.lean ====
section
/-! DEFINITION. The block product turbo codes (41_bptc.md): BPTC(196,96), and the parity-column codes of which CACH, embedded
LC and single burst are instances. -/

namespace Sys2Proof.Machine

/-- `BPTC_PASS_LIMIT` (41_bptc.md R214; 00_scope.md R7). -/
def passLimit : Nat := 5

/-- `repeat: pass; passes = passes + 1 until not fixing or passes == limit` (41_bptc.md R205, R209, R214): the matrix after
the last pass and the number of passes run. -/
def repeatPasses {n : Nat} (pass : BitVec n → BitVec n × Bool) : Nat → BitVec n → BitVec n × Nat
  | 0, m => (m, 0)
  | limit + 1, m =>
    match pass m with
    | (m', true) => ((repeatPasses pass limit m').1, (repeatPasses pass limit m').2 + 1)
    | (m', false) => (m', 1)

/-! ### BPTC(196,96) -/

/-- The index in `M[0..195]` of cell (a, c), row a = 0..12, column c = 0..14 (41_bptc.md R202). -/
def cell196 (a c : Nat) : Nat := 1 + 15 * a + c

/-- `row(a)[0..14]` (41_bptc.md R202). -/
def row196 (m : BitVec 196) (a : Nat) : BitVec 15 := slice m (cell196 a 0) 15

/-- `col(c)[0..12]` (41_bptc.md R202). -/
def col196 (m : BitVec 196) (c : Nat) : BitVec 13 := ofBits 13 fun a => m.getMsbD (cell196 a c)

/-- `row(a) = w`. -/
def setRow196 (m : BitVec 196) (a : Nat) (w : BitVec 15) : BitVec 196 := setSlice m (cell196 a 0) w

/-- `col(c) = w`. -/
def setCol196 (m : BitVec 196) (c : Nat) (w : BitVec 13) : BitVec 196 :=
  ofBits 196 fun p => if 1 ≤ p ∧ (p - 1) % 15 = c then w.getMsbD ((p - 1) / 15) else m.getMsbD p

/-- `BPTC196_INFO_POS` (41_bptc.md R203): the 96 positions of the information bits, ascending. -/
def infoPos196 : List Nat :=
  [4, 5, 6, 7, 8, 9, 10, 11] ++ ((List.range 8).flatMap fun r => (List.range 11).map fun c => cell196 (r + 1) c)

/-- `BPTC196_IDX[a] = (a · 181) mod 196` (41_bptc.md R207). -/
def idx196 : List Nat := (List.range 196).map fun a => a * 181 % 196

/-- `M[BPTC196_INFO_POS[i]] = info[i]`, every other bit 0 (41_bptc.md R203, R204). -/
def placeInfo196 (info : BitVec 96) : BitVec 196 :=
  ofBits 196 fun p => info.getMsbD (infoPos196.idxOf p)

/-- `info[i] = M[BPTC196_INFO_POS[i]]` (41_bptc.md R206). -/
def takeInfo196 (m : BitVec 196) : BitVec 96 :=
  ofBits 96 fun i => m.getMsbD (infoPos196.getD i 0)

/-- `row(a)[11..14] = PAR_H15113(row(a)[0..10])` (41_bptc.md R204). -/
def encodeRow196 (m : BitVec 196) (a : Nat) : BitVec 196 :=
  setRow196 m a (encodeBlock h15113 (slice (row196 m a) 0 11))

/-- `col(c)[9..12] = PAR_H1393(col(c)[0..8])` (41_bptc.md R204). -/
def encodeCol196 (m : BitVec 196) (c : Nat) : BitVec 196 :=
  setCol196 m c (encodeBlock h1393 (slice (col196 m c) 0 9))

/-- The matrix of `BPTC196_ENC` (41_bptc.md R204): rows 0..8, then columns 0..14. -/
def matrix196 (info : BitVec 96) : BitVec 196 :=
  (List.range 15).foldl encodeCol196 ((List.range 9).foldl encodeRow196 (placeInfo196 info))

/-- `BPTC196_ENC` (41_bptc.md R204): `TX[(a·181) mod 196] = M[a]`. -/
def encode196 (info : BitVec 96) : BitVec 196 := scatter idx196 (matrix196 info)

/-- One column of the column step (41_bptc.md R205). -/
def fixCol196 (st : BitVec 196 × Bool) (c : Nat) : BitVec 196 × Bool :=
  match decodeBlock h1393 (col196 st.1 c) with
  | (w, fec) => if 0 < fec.errorsCorrected then (setCol196 st.1 c w, true) else st

/-- One row of the row step (41_bptc.md R205). -/
def fixRow196 (st : BitVec 196 × Bool) (a : Nat) : BitVec 196 × Bool :=
  match decodeBlock h15113 (row196 st.1 a) with
  | (w, fec) => if 0 < fec.errorsCorrected then (setRow196 st.1 a w, true) else st

/-- One pass (41_bptc.md R205): columns 0..14, then rows 0..8; the flag is `fixing`. -/
def pass196 (m : BitVec 196) : BitVec 196 × Bool :=
  (List.range 9).foldl fixRow196 ((List.range 15).foldl fixCol196 (m, false))

/-- The final test of 41_bptc.md R206: some column or some data row is no codeword. -/
def inconsistent196 (m : BitVec 196) : Bool :=
  ((List.range 15).any fun c => syndrome h1393 (col196 m c) != 0#4) ||
    ((List.range 9).any fun a => syndrome h15113 (row196 m a) != 0#4)

/-- `Σ_{a=1..195} M[a] ⊕ M0[a]` (41_bptc.md R206, R213). -/
def changed196 (m m0 : BitVec 196) : Nat :=
  ((List.range 195).map (· + 1)).countP fun a => m.getMsbD a ^^ m0.getMsbD a

/-- `BPTC196_DEC` (41_bptc.md R205, R206). -/
def decode196 (tx : BitVec 196) : BitVec 96 × FecResult :=
  let m0 := gather idx196 tx
  let m := (repeatPasses pass196 passLimit m0).1
  (takeInfo196 m, ⟨196, changed196 m m0, inconsistent196 m⟩)

/-! ### Parity-column codes

A matrix of `R = dataRows + 1` rows and `n = k + r` columns, flat: bit `a·n + c` is cell (a, c). -/

/-- `row(a)` of the flat matrix. -/
def rowOf {k r : Nat} (_ : BlockCode k r) {n : Nat} (m : BitVec n) (a : Nat) : BitVec (k + r) :=
  slice m (a * (k + r)) (k + r)

/-- The column parities `P ⊕ (⊕_{a < dataRows} M[a][c])`, c = 0..n−1 (41_bptc.md R208, R209). -/
def columnParity {k r : Nat} (_ : BlockCode k r) (dataRows : Nat) (odd : Bool) {n : Nat} (m : BitVec n) :
    BitVec (k + r) :=
  ofBits (k + r) fun c => odd ^^ xorBits m ((List.range dataRows).map fun a => a * (k + r) + c)

/-- The data rows of 41_bptc.md R208: `row(a) = ENC_H(info[a·k .. a·k+k-1])`; the parity row is 0 yet. -/
def dataRowsOf {k r : Nat} (C : BlockCode k r) (dataRows : Nat) {i : Nat} (info : BitVec i) :
    BitVec ((dataRows + 1) * (k + r)) :=
  (List.range dataRows).foldl (fun m a => setSlice m (a * (k + r)) (encodeBlock C (slice info (a * k) k))) 0

/-- The matrix of `BPTC_PAR_ENC` (41_bptc.md R208): data rows, then the parity row. -/
def matrixParity {k r : Nat} (C : BlockCode k r) (dataRows : Nat) (odd : Bool) {i : Nat} (info : BitVec i) :
    BitVec ((dataRows + 1) * (k + r)) :=
  let m := dataRowsOf C dataRows info
  setSlice m (dataRows * (k + r)) (columnParity C dataRows odd m)

/-- `BPTC_PAR_ENC` (41_bptc.md R208): `TX[j] = Mflat[MAP(j)]`. -/
def encodeParity {k r : Nat} (C : BlockCode k r) (dataRows : Nat) (odd : Bool) (map : List Nat) {i : Nat}
    (info : BitVec i) : BitVec ((dataRows + 1) * (k + r)) :=
  gather map (matrixParity C dataRows odd info)

/-- `V[c]`, the column-parity violations (41_bptc.md R209). -/
def violations {k r : Nat} (C : BlockCode k r) (dataRows : Nat) (odd : Bool) {n : Nat} (m : BitVec n) :
    BitVec (k + r) :=
  rowOf C m dataRows ^^^ columnParity C dataRows odd m

/-- `ROW_OK(w, row, V)` (41_bptc.md R209): under `column_gated`, every flipped bit lies in a violated column. -/
def rowOk {n : Nat} (policy : RowPolicy) (w row v : BitVec n) : Bool :=
  match policy with
  | .unconditional => true
  | .columnGated => (w ^^^ row) &&& ~~~v == 0#n

/-- One row of a pass of 41_bptc.md R209; `v` are the violations at the start of the pass. -/
def fixRow {k r : Nat} (policy : RowPolicy) (C : BlockCode k r) (v : BitVec (k + r)) {n : Nat}
    (st : BitVec n × Bool) (a : Nat) : BitVec n × Bool :=
  match decodeBlock C (rowOf C st.1 a) with
  | (w, fec) =>
    if 0 < fec.errorsCorrected ∧ rowOk policy w (rowOf C st.1 a) v = true
    then (setSlice st.1 (a * (k + r)) w, true)
    else st

/-- One pass of 41_bptc.md R209. -/
def passParity {k r : Nat} (policy : RowPolicy) (C : BlockCode k r) (dataRows : Nat) (odd : Bool) {n : Nat}
    (m : BitVec n) : BitVec n × Bool :=
  (List.range dataRows).foldl (fixRow policy C (violations C dataRows odd m)) (m, false)

/-- The final test of 41_bptc.md R209: some data row is no codeword or some column parity is violated. -/
def inconsistentParity {k r : Nat} (C : BlockCode k r) (dataRows : Nat) (odd : Bool) {n : Nat} (m : BitVec n) :
    Bool :=
  ((List.range dataRows).any fun a => syndrome C (rowOf C m a) != 0#r) ||
    violations C dataRows odd m != 0#(k + r)

/-- The information bits `row(0)[0..k-1] ‖ row(1)[0..k-1] ‖ …` (41_bptc.md R209). -/
def takeInfo {k r : Nat} (_ : BlockCode k r) (dataRows : Nat) {n : Nat} (m : BitVec n) : BitVec (dataRows * k) :=
  ofBits (dataRows * k) fun i => m.getMsbD (i / k * (k + r) + i % k)

/-- `BPTC_PAR_DEC` (41_bptc.md R209): `Mflat[MAP(j)] = TX[j]`, the passes, the final test and the count (R213). -/
def decodeParity {k r : Nat} (policy : RowPolicy) (C : BlockCode k r) (dataRows : Nat) (odd : Bool)
    (map : List Nat) {n : Nat} (tx : BitVec n) : BitVec (dataRows * k) × FecResult :=
  let m0 := scatter map tx
  let m := (repeatPasses (passParity policy C dataRows odd) passLimit m0).1
  (takeInfo C dataRows m, ⟨n, weight (m ^^^ m0), inconsistentParity C dataRows odd m⟩)

/-- `CACH_IDX(j) = (j mod 4)·17 + (j div 4)` (41_bptc.md R210). -/
def cachIdx : List Nat := (List.range 68).map fun j => j % 4 * 17 + j / 4

/-- `ELC_IDX(j) = (j mod 8)·16 + (j div 8)` (41_bptc.md R211). -/
def elcIdx : List Nat := (List.range 128).map fun j => j % 8 * 16 + j / 8

/-- `SB_IDX(j) = (17·j) mod 32` (41_bptc.md R212). -/
def sbIdx : List Nat := (List.range 32).map fun j => 17 * j % 32

/-- The CACH instantiation: 4 × 17, rows 0..2 Hamming(17,12,3), row 3 even column parity (41_bptc.md R210). -/
def encodeCach (info : BitVec 36) : BitVec 68 := encodeParity h17123 3 false cachIdx info

/-- CACH decode (41_bptc.md R209, R210). -/
def decodeCach (policy : RowPolicy) (tx : BitVec 68) : BitVec 36 × FecResult :=
  decodeParity policy h17123 3 false cachIdx tx

/-- The embedded-LC instantiation: 8 × 16, rows 0..6 Hamming(16,11,4), row 7 even column parity (41_bptc.md R211). -/
def encodeElc (info : BitVec 77) : BitVec 128 := encodeParity h16114 7 false elcIdx info

/-- Embedded-LC decode (41_bptc.md R209, R211). -/
def decodeElc (policy : RowPolicy) (tx : BitVec 128) : BitVec 77 × FecResult :=
  decodeParity policy h16114 7 false elcIdx tx

/-- The single-burst instantiation: 2 × 16, row 0 Hamming(16,11,4), row 1 column parity, even or odd (41_bptc.md R212). -/
def encodeSb (odd : Bool) (info : BitVec 11) : BitVec 32 := encodeParity h16114 1 odd sbIdx info

/-- Single-burst decode (41_bptc.md R209, R212). -/
def decodeSb (policy : RowPolicy) (odd : Bool) (tx : BitVec 32) : BitVec 11 × FecResult :=
  decodeParity policy h16114 1 odd sbIdx tx

end Sys2Proof.Machine
end

