-- ==== Sys2Proof/Machine/Operands.lean ====
section
/-! DEFINITION. Operands: DIN[0..LEN-1] (30_encoding.md R75; 10_state.md R24, R34), and the host's access to DIN. -/

namespace Sys2Proof.Machine

/-- The first bit of DIN[0..len-1] not written since reset, if there is one (60_exceptions.md R350). -/
def firstUnwritten (s : State) (len : Nat) : Option Nat :=
  (List.range len).find? fun i => !s.dinWritten.getMsbD i

/-- Check 4 of 60_exceptions.md R336: the operand bit that ends the command in the fault, if one does. On hardware none does
(10_state.md R34; log 4). -/
def missingInput (s : State) (len : Nat) : Option Nat :=
  match s.params.unwrittenInput with
  | .held => none
  | .stops => firstUnwritten s len

/-- The operand `DIN[0..len-1]` (30_encoding.md R75). -/
def operand (s : State) (len : Nat) : BitVec len := slice s.din 0 len

/-- The host writes the bits of DIN that `mask` selects; they stay written until reset (10_state.md R24, R34). -/
def storeDin (mask value : Port) (s : State) : State :=
  { s with din := (s.din &&& ~~~mask) ||| (value &&& mask), dinWritten := s.dinWritten ||| mask }

/-- The mask that selects DIN[first .. first+len-1]. -/
def dinMask (first len : Nat) : Port :=
  ofBits 256 fun i => decide (first ≤ i) && decide (i < first + len)

/-- The access `DIN[first .. first+n-1] <- v` of a host program (95_test_vectors.md part 3). -/
def dinAccess {n : Nat} (first : Nat) (v : BitVec n) : HostAccess :=
  .writeDin (dinMask first n) (setSlice 0#256 first v)

end Sys2Proof.Machine
end

