-- ==== Sys2Proof/Machine/Ops.lean ====
section
/-! DEFINITION. The named operations over the registers: completing a command, ending one with an error status, the checks
every command passes through, and the host port. -/

namespace Sys2Proof.Machine

/-- A result vector as DOUT: `DOUT[0..n-1] <- out; DOUT[n..255] <- 0` (10_state.md R25; 00_scope.md R11). -/
def doutOf {n : Nat} (out : BitVec n) : Port := ofBits 256 fun i => out.getMsbD i

/-- The registers every command writes, in one update (20_memory.md R55). -/
def writeResult (dout : Port) (outLen : Nat) (fec : FecResult) (st : Status) (s : State) : State :=
  { s with
    dout := dout
    outLen := BitVec.ofNat 16 outLen
    resBits := BitVec.ofNat 16 fec.bitsChecked
    resErr := BitVec.ofNat 16 fec.errorsCorrected
    resUnc := fec.uncorrectable
    status := statusCode st }

/-- `result(out, b, e, u)` (00_scope.md R11): the command completes with STATUS = OK. -/
def result {n : Nat} (out : BitVec n) (fec : FecResult) (s : State) : State :=
  writeResult (doutOf out) n fec .ok s

/-- `result` of a command that decodes nothing: the record is (0, 0, 0) (10_state.md R26). -/
def resultPlain {n : Nat} (out : BitVec n) (s : State) : State := result out noFec s

/-- `result` of a decode of the vector `received`. When the outcome is uncorrectable the payload is best effort
(60_exceptions.md R338): the value the rules state, or any value under BEST_EFFORT_OUTPUT = any_value
(93_implementation_defined.md U1; log 7). -/
def resultDecoded {m n : Nat} (received : BitVec m) (decoded : BitVec n × FecResult) (s : State) : State :=
  match decoded.2.uncorrectable, s.params.bestEffort with
  | true, .anyValue => result (slice (Config.bestEffortOutput s.cmd (doutOf received)) 0 n) decoded.2 s
  | _, _ => result decoded.1 decoded.2 s

/-- `raise <Status>` (00_scope.md R11): the effects of an error status (60_exceptions.md R334). Nothing is saved, no mode
changes and nothing returns from it (R341, R342). -/
def raise (st : Status) (s : State) : State := writeResult 0#256 0 noFec st s

/-- The checks 2 to 4 of 60_exceptions.md R336 and then the command's rule `body` on its operand: the steps of
10_state.md R35 after `CMD <- w`. -/
def command (oddAllowed : Bool) (required : Nat) (flg : BitVec 8) (len : BitVec 16)
    (body : BitVec required → State → State) (s : State) : Host.Outcome State Fault Refusal :=
  if flagsReserved oddAllowed flg then .next (raise .reservedFlags s)
  else if lengthWrong required len then .next (raise .lengthMismatch s)
  else
    match missingInput s required with
    | some i => .fault (.unwrittenInput i s)
    | none => .next (body (operand s required) s)

/-- The platform's reset (70_reset_and_hazards.md R360): every register at its reset value. The parameters and the
accesses still to come are not the block's registers and stay (log 11). -/
def resetBlock (s : State) : State :=
  { State.reset with params := s.params, inbox := s.inbox }

/-- The register numbers of 10_state.md R22. -/
def regNumber : HostReg → Nat
  | .cmd => 0
  | .din => 1
  | .result .dout => 2
  | .result .outLen => 3
  | .result .status => 4
  | .result .resBits => 5
  | .result .resErr => 6
  | .result .resUnc => 7
  | .result .slcCnt => 8

/-- The register widths of 10_state.md R22. -/
def regWidth : HostReg → Nat
  | .cmd => 32
  | .din => 256
  | .result .dout => 256
  | .result .outLen => 16
  | .result .status => 8
  | .result .resBits => 16
  | .result .resErr => 16
  | .result .resUnc => 1
  | .result .slcCnt => 3

/-- DIN[i] as the host reads it: what the bit holds, as a command reads it. Where commands may not read a bit not written
since reset, it has no defined value (10_state.md R34): a free value (log 5). -/
def dinBit (s : State) (i : Nat) : Bool :=
  if s.dinWritten.getMsbD i || s.params.unwrittenInput == .held then s.din.getMsbD i else Config.unwrittenDinBit i

/-- What a host read of a register returns (10_state.md R22; 20_memory.md R56, R59). -/
def hostRead (s : State) : (r : HostReg) → BitVec (regWidth r)
  | .cmd => s.cmd
  | .din => ofBits 256 (dinBit s)
  | .result .dout => s.dout
  | .result .outLen => s.outLen
  | .result .status => s.status
  | .result .resBits => s.resBits
  | .result .resErr => s.resErr
  | .result .resUnc => BitVec.ofBool s.resUnc
  | .result .slcCnt => s.slcCnt

end Sys2Proof.Machine
end

