-- ==== Sys2Proof/Machine/Assembler.lean ====
section
/-! DEFINITION. The Short-LC assembler commands (41_bptc.md R217, R228, R229). -/

namespace Sys2Proof.Machine

/-- `SLC.RESET` (41_bptc.md R228): the assembler is cleared; the result is the empty vector. -/
def execSlcReset (flg : BitVec 8) (len : BitVec 16) (s : State) : Host.Outcome State Fault Refusal :=
  command false 0 flg len (fun _ s => resultPlain 0#0 { s with slcBuf := 0#68, slcCnt := 0#3 }) s

/-- `SLC_BUF[17i .. 17i+16] <- f` (41_bptc.md R217, R229). -/
def storeFragment (buf : BitVec 68) (i : Nat) (f : BitVec 17) : BitVec 68 := setSlice buf (17 * i) f

/-- The rule of `SLC.PUSH` (41_bptc.md R229): fragments 0 to 2 are stored and pending; the fourth completes the CACH vector,
which is decoded as by CACH.DEC, and the assembler is cleared whatever the outcome. -/
def pushFragment (f : BitVec 17) (s : State) : State :=
  let buf := storeFragment s.slcBuf s.slcCnt.toNat f
  if s.slcCnt.toNat < 3 then
    writeResult 0#256 0 noFec .slcPending { s with slcBuf := buf, slcCnt := s.slcCnt + 1#3 }
  else
    resultDecoded buf (decodeCach s.params.rowPolicy buf)
      { s with slcBuf := 0#68, slcCnt := 0#3 }

/-- `SLC.PUSH` (41_bptc.md R229): one 17-bit CACH fragment into the assembler. -/
def execSlcPush (flg : BitVec 8) (len : BitVec 16) (s : State) : Host.Outcome State Fault Refusal :=
  command false 17 flg len (fun f => pushFragment f) s

end Sys2Proof.Machine
end

