-- ==== Sys2Proof/Machine/Bptc.lean ====
section
/-! DEFINITION. The BPTC commands (41_bptc.md R220 to R227). -/

namespace Sys2Proof.Machine

/-- `BPTC196.ENC` (41_bptc.md R220): 96 information bits to the 196-bit transmit vector. -/
def execBptc196Enc (flg : BitVec 8) (len : BitVec 16) (s : State) : Host.Outcome State Fault Refusal :=
  command false 96 flg len (fun info => resultPlain (encode196 info)) s

/-- `BPTC196.DEC` (41_bptc.md R221): a 196-bit transmit vector to the 96 information bits and the outcome. -/
def execBptc196Dec (flg : BitVec 8) (len : BitVec 16) (s : State) : Host.Outcome State Fault Refusal :=
  command false 196 flg len (fun tx => resultDecoded tx (decode196 tx)) s

/-- `CACH.ENC` (41_bptc.md R222): 36 information bits to the 68-bit CACH transmit vector. -/
def execCachEnc (flg : BitVec 8) (len : BitVec 16) (s : State) : Host.Outcome State Fault Refusal :=
  command false 36 flg len (fun info => resultPlain (encodeCach info)) s

/-- `CACH.DEC` (41_bptc.md R223): a 68-bit CACH transmit vector to the 36 information bits and the outcome. -/
def execCachDec (flg : BitVec 8) (len : BitVec 16) (s : State) : Host.Outcome State Fault Refusal :=
  command false 68 flg len (fun tx s =>
    resultDecoded tx (decodeCach s.params.rowPolicy tx) s) s

/-- `ELC.ENC` (41_bptc.md R224): 77 information bits to the 128-bit embedded-LC transmit vector. -/
def execElcEnc (flg : BitVec 8) (len : BitVec 16) (s : State) : Host.Outcome State Fault Refusal :=
  command false 77 flg len (fun info => resultPlain (encodeElc info)) s

/-- `ELC.DEC` (41_bptc.md R225): a 128-bit embedded-LC transmit vector to the 77 information bits and the outcome. -/
def execElcDec (flg : BitVec 8) (len : BitVec 16) (s : State) : Host.Outcome State Fault Refusal :=
  command false 128 flg len (fun tx s =>
    resultDecoded tx (decodeElc s.params.rowPolicy tx) s) s

/-- `SB.ENC` (41_bptc.md R226): 11 information bits to the 32-bit single-burst vector, column parity FLG.ODD
(30_encoding.md R72). -/
def execSbEnc (flg : BitVec 8) (len : BitVec 16) (s : State) : Host.Outcome State Fault Refusal :=
  command true 11 flg len (fun info => resultPlain (encodeSb (flg.getLsbD 0) info)) s

/-- `SB.DEC` (41_bptc.md R227): a 32-bit single-burst vector to the 11 information bits and the outcome, column parity
FLG.ODD (30_encoding.md R72). -/
def execSbDec (flg : BitVec 8) (len : BitVec 16) (s : State) : Host.Outcome State Fault Refusal :=
  command true 32 flg len (fun tx s =>
    resultDecoded tx (decodeSb s.params.rowPolicy (flg.getLsbD 0) tx) s) s

/-- `SB.ENC.RC` (30_encoding.md R80; 41_bptc.md R226): `SB.ENC` with FLG.ODD = 1 and LEN = 11. -/
def execSbEncRc (s : State) : Host.Outcome State Fault Refusal :=
  command true 11 1#8 11#16 (fun info => resultPlain (encodeSb true info)) s

/-- `SB.DEC.RC` (30_encoding.md R80; 41_bptc.md R227): `SB.DEC` with FLG.ODD = 1 and LEN = 32. -/
def execSbDecRc (s : State) : Host.Outcome State Fault Refusal :=
  command true 32 1#8 32#16 (fun tx s =>
    resultDecoded tx (decodeSb s.params.rowPolicy true tx) s) s

end Sys2Proof.Machine
end

