-- ==== Sys2Proof/Machine/Golay.lean ====
section
/-! DEFINITION. The Golay commands (40_block_codes.md R135 to R143). -/

namespace Sys2Proof.Machine

/-- `GOL2087.PAR` (40_block_codes.md R135): the 12 check bits of Golay(20,8,7). -/
def execGol2087Par (flg : BitVec 8) (len : BitVec 16) (s : State) : Host.Outcome State Fault Refusal :=
  command false 8 flg len (fun d => resultPlain (parity g2087 d)) s

/-- `GOL2087.ENC` (40_block_codes.md R136): 8 data bits to the 20-bit codeword. -/
def execGol2087Enc (flg : BitVec 8) (len : BitVec 16) (s : State) : Host.Outcome State Fault Refusal :=
  command false 8 flg len (fun d => resultPlain (encodeBlock g2087 d)) s

/-- `GOL2087.DEC` (40_block_codes.md R137): a received 20-bit word to the corrected word and its outcome. -/
def execGol2087Dec (flg : BitVec 8) (len : BitVec 16) (s : State) : Host.Outcome State Fault Refusal :=
  command false 20 flg len (fun c => resultDecoded c (decodeBlock g2087 c)) s

/-- `GOL23127.PAR` (40_block_codes.md R138): the 11 check bits of Golay(23,12,7). -/
def execGol23127Par (flg : BitVec 8) (len : BitVec 16) (s : State) : Host.Outcome State Fault Refusal :=
  command false 12 flg len (fun d => resultPlain (parity g23127 d)) s

/-- `GOL23127.ENC` (40_block_codes.md R139): 12 data bits to the 23-bit codeword. -/
def execGol23127Enc (flg : BitVec 8) (len : BitVec 16) (s : State) : Host.Outcome State Fault Refusal :=
  command false 12 flg len (fun d => resultPlain (encodeBlock g23127 d)) s

/-- `GOL23127.DEC` (40_block_codes.md R140): a received 23-bit word to the corrected word and its outcome. -/
def execGol23127Dec (flg : BitVec 8) (len : BitVec 16) (s : State) : Host.Outcome State Fault Refusal :=
  command false 23 flg len (fun c => resultDecoded c (decodeBlock g23127 c)) s

/-- `GOL24128.PAR` (40_block_codes.md R141): the 12 check bits of Golay(24,12,8). -/
def execGol24128Par (flg : BitVec 8) (len : BitVec 16) (s : State) : Host.Outcome State Fault Refusal :=
  command false 12 flg len (fun d => resultPlain (parity g24128 d)) s

/-- `GOL24128.ENC` (40_block_codes.md R142): 12 data bits to the 24-bit codeword. -/
def execGol24128Enc (flg : BitVec 8) (len : BitVec 16) (s : State) : Host.Outcome State Fault Refusal :=
  command false 12 flg len (fun d => resultPlain (encodeBlock g24128 d)) s

/-- `GOL24128.DEC` (40_block_codes.md R143): a received 24-bit word to the corrected word and its outcome. -/
def execGol24128Dec (flg : BitVec 8) (len : BitVec 16) (s : State) : Host.Outcome State Fault Refusal :=
  command false 24 flg len (fun c => resultDecoded c (decodeBlock g24128 c)) s

end Sys2Proof.Machine
end

