-- ==== Sys2Proof/Machine/Hamming.lean ====
section
/-! DEFINITION. The Hamming commands (40_block_codes.md R120 to R134). -/

namespace Sys2Proof.Machine

/-- `HAM743.PAR` (40_block_codes.md R120): the 3 check bits of Hamming(7,4,3). -/
def execHam743Par (flg : BitVec 8) (len : BitVec 16) (s : State) : Host.Outcome State Fault Refusal :=
  command false 4 flg len (fun d => resultPlain (parity h743 d)) s

/-- `HAM743.ENC` (40_block_codes.md R121): 4 data bits to the 7-bit codeword. -/
def execHam743Enc (flg : BitVec 8) (len : BitVec 16) (s : State) : Host.Outcome State Fault Refusal :=
  command false 4 flg len (fun d => resultPlain (encodeBlock h743 d)) s

/-- `HAM743.DEC` (40_block_codes.md R122): a received 7-bit word to the corrected word and its outcome. -/
def execHam743Dec (flg : BitVec 8) (len : BitVec 16) (s : State) : Host.Outcome State Fault Refusal :=
  command false 7 flg len (fun c => resultDecoded c (decodeBlock h743 c)) s

/-- `HAM1393.PAR` (40_block_codes.md R123): the 4 check bits of Hamming(13,9,3). -/
def execHam1393Par (flg : BitVec 8) (len : BitVec 16) (s : State) : Host.Outcome State Fault Refusal :=
  command false 9 flg len (fun d => resultPlain (parity h1393 d)) s

/-- `HAM1393.ENC` (40_block_codes.md R124): 9 data bits to the 13-bit codeword. -/
def execHam1393Enc (flg : BitVec 8) (len : BitVec 16) (s : State) : Host.Outcome State Fault Refusal :=
  command false 9 flg len (fun d => resultPlain (encodeBlock h1393 d)) s

/-- `HAM1393.DEC` (40_block_codes.md R125): a received 13-bit word to the corrected word and its outcome. -/
def execHam1393Dec (flg : BitVec 8) (len : BitVec 16) (s : State) : Host.Outcome State Fault Refusal :=
  command false 13 flg len (fun c => resultDecoded c (decodeBlock h1393 c)) s

/-- `HAM15113.PAR` (40_block_codes.md R126): the 4 check bits of Hamming(15,11,3). -/
def execHam15113Par (flg : BitVec 8) (len : BitVec 16) (s : State) : Host.Outcome State Fault Refusal :=
  command false 11 flg len (fun d => resultPlain (parity h15113 d)) s

/-- `HAM15113.ENC` (40_block_codes.md R127): 11 data bits to the 15-bit codeword. -/
def execHam15113Enc (flg : BitVec 8) (len : BitVec 16) (s : State) : Host.Outcome State Fault Refusal :=
  command false 11 flg len (fun d => resultPlain (encodeBlock h15113 d)) s

/-- `HAM15113.DEC` (40_block_codes.md R128): a received 15-bit word to the corrected word and its outcome. -/
def execHam15113Dec (flg : BitVec 8) (len : BitVec 16) (s : State) : Host.Outcome State Fault Refusal :=
  command false 15 flg len (fun c => resultDecoded c (decodeBlock h15113 c)) s

/-- `HAM16114.PAR` (40_block_codes.md R129): the 5 check bits of Hamming(16,11,4). -/
def execHam16114Par (flg : BitVec 8) (len : BitVec 16) (s : State) : Host.Outcome State Fault Refusal :=
  command false 11 flg len (fun d => resultPlain (parity h16114 d)) s

/-- `HAM16114.ENC` (40_block_codes.md R130): 11 data bits to the 16-bit codeword. -/
def execHam16114Enc (flg : BitVec 8) (len : BitVec 16) (s : State) : Host.Outcome State Fault Refusal :=
  command false 11 flg len (fun d => resultPlain (encodeBlock h16114 d)) s

/-- `HAM16114.DEC` (40_block_codes.md R131): a received 16-bit word to the corrected word and its outcome. -/
def execHam16114Dec (flg : BitVec 8) (len : BitVec 16) (s : State) : Host.Outcome State Fault Refusal :=
  command false 16 flg len (fun c => resultDecoded c (decodeBlock h16114 c)) s

/-- `HAM17123.PAR` (40_block_codes.md R132): the 5 check bits of Hamming(17,12,3). -/
def execHam17123Par (flg : BitVec 8) (len : BitVec 16) (s : State) : Host.Outcome State Fault Refusal :=
  command false 12 flg len (fun d => resultPlain (parity h17123 d)) s

/-- `HAM17123.ENC` (40_block_codes.md R133): 12 data bits to the 17-bit codeword. -/
def execHam17123Enc (flg : BitVec 8) (len : BitVec 16) (s : State) : Host.Outcome State Fault Refusal :=
  command false 12 flg len (fun d => resultPlain (encodeBlock h17123 d)) s

/-- `HAM17123.DEC` (40_block_codes.md R134): a received 17-bit word to the corrected word and its outcome. -/
def execHam17123Dec (flg : BitVec 8) (len : BitVec 16) (s : State) : Host.Outcome State Fault Refusal :=
  command false 17 flg len (fun c => resultDecoded c (decodeBlock h17123 c)) s

end Sys2Proof.Machine
end

