-- ==== Sys2Proof/Machine/QuadraticResidue.lean ====
section
/-! DEFINITION. The quadratic-residue commands (40_block_codes.md R144 to R146). -/

namespace Sys2Proof.Machine

/-- `QR1676.PAR` (40_block_codes.md R144): the 9 check bits of QR(16,7,6). -/
def execQr1676Par (flg : BitVec 8) (len : BitVec 16) (s : State) : Host.Outcome State Fault Refusal :=
  command false 7 flg len (fun d => resultPlain (parity qr1676 d)) s

/-- `QR1676.ENC` (40_block_codes.md R145): 7 data bits to the 16-bit codeword. -/
def execQr1676Enc (flg : BitVec 8) (len : BitVec 16) (s : State) : Host.Outcome State Fault Refusal :=
  command false 7 flg len (fun d => resultPlain (encodeBlock qr1676 d)) s

/-- `QR1676.DEC` (40_block_codes.md R146): a received 16-bit word to the corrected word and its outcome. -/
def execQr1676Dec (flg : BitVec 8) (len : BitVec 16) (s : State) : Host.Outcome State Fault Refusal :=
  command false 16 flg len (fun c => resultDecoded c (decodeBlock qr1676 c)) s

end Sys2Proof.Machine
end

