-- ==== Sys2Proof/Machine/ReedSolomon.lean ====
section
/-! DEFINITION. The Reed-Solomon commands (43_reed_solomon.md R305 to R308). -/

namespace Sys2Proof.Machine

/-- `RS129.ENC` (43_reed_solomon.md R305): 9 data bytes to the 12-byte codeword. -/
def execRs129Enc (flg : BitVec 8) (len : BitVec 16) (s : State) : Host.Outcome State Fault Refusal :=
  command false 72 flg len (fun data => resultPlain (encodeRs data)) s

/-- `RS129.SYND` (43_reed_solomon.md R306): the three syndrome bytes of a 12-byte word. -/
def execRs129Synd (flg : BitVec 8) (len : BitVec 16) (s : State) : Host.Outcome State Fault Refusal :=
  command false 96 flg len (fun b => resultPlain (rsSyndromes b)) s

/-- `RS129.CHECK` (43_reed_solomon.md R307): one bit, 1 when the 12-byte word is a codeword. -/
def execRs129Check (flg : BitVec 8) (len : BitVec 16) (s : State) : Host.Outcome State Fault Refusal :=
  command false 96 flg len (fun b => resultPlain (BitVec.ofBool (rsPasses b))) s

/-- `RS129.CORR` (43_reed_solomon.md R308): a 12-byte word corrected with the syndrome supplied after it. -/
def execRs129Corr (flg : BitVec 8) (len : BitVec 16) (s : State) : Host.Outcome State Fault Refusal :=
  command false 120 flg len (fun x =>
    resultDecoded x (correctRs (slice x 0 96) (byteAt x 12) (byteAt x 13) (byteAt x 14))) s

end Sys2Proof.Machine
end

