-- ==== Sys2Proof/Machine/TrellisCodec.lean ====
section
/-! DEFINITION. The rate-3/4 trellis codec (42_trellis.md): its ROM tables, the encoder and the decoder. -/

namespace Sys2Proof.Machine

/-- A signed 4-level symbol (00_scope.md R15). -/
inductive Dibit where
  | plus3 | plus1 | minus1 | minus3
deriving DecidableEq, Repr

/-- The two bits of a dibit, first bit first (42_trellis.md R267). -/
def dibitBits : Dibit → BitVec 2
  | .plus3 => 0b01#2
  | .plus1 => 0b00#2
  | .minus1 => 0b10#2
  | .minus3 => 0b11#2

/-- The dibit two bits name (42_trellis.md R267). -/
def dibitOf (b : BitVec 2) : Dibit :=
  match b.getMsbD 0, b.getMsbD 1 with
  | false, true => .plus3
  | false, false => .plus1
  | true, false => .minus1
  | true, true => .minus3

/-- `TRL_ENC[s][t]`, the point the encoder emits (42_trellis.md R264). -/
def trellisRom : List (List Nat) :=
  [[0, 8, 4, 12, 2, 10, 6, 14],
   [4, 12, 2, 10, 6, 14, 0, 8],
   [1, 9, 5, 13, 3, 11, 7, 15],
   [5, 13, 3, 11, 7, 15, 1, 9],
   [3, 11, 7, 15, 1, 9, 5, 13],
   [7, 15, 1, 9, 5, 13, 3, 11],
   [2, 10, 6, 14, 0, 8, 4, 12],
   [6, 14, 0, 8, 4, 12, 2, 10]]

/-- One look-up in `TRL_ENC` (42_trellis.md R264). -/
def trellisPoint (s t : BitVec 3) : BitVec 4 :=
  BitVec.ofNat 4 ((trellisRom.getD s.toNat []).getD t.toNat 0)

/-- `TRL_CONST[p]`, the dibit pair of each point (42_trellis.md R266). -/
def constellationRom : List (Dibit × Dibit) :=
  [(.plus1, .minus1), (.minus1, .minus1), (.plus3, .plus3), (.minus3, .plus3),
   (.minus3, .minus1), (.plus3, .minus1), (.minus1, .plus3), (.plus1, .plus3),
   (.minus3, .minus3), (.plus3, .minus3), (.plus1, .plus1), (.minus1, .plus1),
   (.plus1, .minus3), (.minus1, .minus3), (.plus3, .plus1), (.minus3, .plus1)]

/-- One look-up in `TRL_CONST` (42_trellis.md R266). -/
def constellation (p : BitVec 4) : Dibit × Dibit := constellationRom.getD p.toNat (.plus1, .minus1)

/-- `TRL_CONST⁻¹`: the one point of a dibit pair (42_trellis.md R266, R270). -/
def pointOf (pair : Dibit × Dibit) : BitVec 4 := BitVec.ofNat 4 (constellationRom.idxOf pair)

/-- `TRL_IL[0..97]` (42_trellis.md R268). -/
def interleaveRom : List Nat :=
  [0, 1, 8, 9, 16, 17, 24, 25, 32, 33, 40, 41, 48, 49, 56, 57, 64, 65, 72, 73, 80, 81, 88, 89, 96, 97] ++
  [2, 3, 10, 11, 18, 19, 26, 27, 34, 35, 42, 43, 50, 51, 58, 59, 66, 67, 74, 75, 82, 83, 90, 91] ++
  [4, 5, 12, 13, 20, 21, 28, 29, 36, 37, 44, 45, 52, 53, 60, 61, 68, 69, 76, 77, 84, 85, 92, 93] ++
  [6, 7, 14, 15, 22, 23, 30, 31, 38, 39, 46, 47, 54, 55, 62, 63, 70, 71, 78, 79, 86, 87, 94, 95]

/-- `TRL_INV[s][p]`: the tribit t with `TRL_ENC[s][t] = p`, `none` for the sentinel 0xFF (42_trellis.md R269). -/
def trellisInverse (s : BitVec 3) (p : BitVec 4) : Option (BitVec 3) :=
  ((List.range 8).map (BitVec.ofNat 3)).find? fun t => trellisPoint s t == p

/-- The 48 data tribits `tri[i] = int(b[3i .. 3i+2])` and the flush tribit 0 (42_trellis.md R262). -/
def tribitsOf (b : BitVec 144) : List (BitVec 3) :=
  ((List.range 48).map fun i => slice b (3 * i) 3) ++ [0#3]

/-- `P[i] = TRL_ENC[s][tri[i]]; s = tri[i]` (42_trellis.md R265). -/
def pointsFrom : BitVec 3 → List (BitVec 3) → List (BitVec 4)
  | _, [] => []
  | s, t :: ts => trellisPoint s t :: pointsFrom t ts

/-- The dibit sequence `D[2i], D[2i+1] = TRL_CONST[P[i]]` (42_trellis.md R266). -/
def dibitsOf (points : List (BitVec 4)) : List Dibit :=
  points.flatMap fun p => [(constellation p).1, (constellation p).2]

/-- `TX[2i .. 2i+1] = bits(D[TRL_IL[i]])`, i = 0..97 (42_trellis.md R268). -/
def transmitDibits (ds : List Dibit) : BitVec 196 :=
  ofBits 196 fun j => (dibitBits (ds.getD (interleaveRom.getD (j / 2) 98) .plus1)).getMsbD (j % 2)

/-- The trellis encoder (42_trellis.md R275); it starts in state 0 (R261). -/
def encodeTrellis (b : BitVec 144) : BitVec 196 :=
  transmitDibits (dibitsOf (pointsFrom 0#3 (tribitsOf b)))

/-- `D[TRL_IL[i]] = dibit(TX[2i], TX[2i+1])`: dibit `d` of the received vector (42_trellis.md R270). -/
def receivedDibit (tx : BitVec 196) (d : Nat) : Dibit :=
  dibitOf (slice tx (2 * interleaveRom.idxOf d) 2)

/-- `P[i] = TRL_CONST⁻¹(D[2i], D[2i+1])`, i = 0..48 (42_trellis.md R270). -/
def receivedPoints (tx : BitVec 196) : List (BitVec 4) :=
  (List.range 49).map fun i => pointOf (receivedDibit tx (2 * i), receivedDibit tx (2 * i + 1))

/-- The decoder's transitions (42_trellis.md R271): the tribits put out and the number of invalid transitions. On an invalid
one the state stays and is put out (`TRELLIS_INVALID_OUTPUT` = `state`, 00_scope.md R7). -/
def decodePoints : BitVec 3 → List (BitVec 4) → List (BitVec 3) × Nat
  | _, [] => ([], 0)
  | s, p :: ps =>
    match trellisInverse s p with
    | some t => (t :: (decodePoints t ps).1, (decodePoints t ps).2)
    | none => (s :: (decodePoints s ps).1, (decodePoints s ps).2 + 1)

/-- `b[3i .. 3i+2] = bits_3(out[i])`, i < 48; the flush tribit `out[48]` is dropped (42_trellis.md R262, R272). -/
def packTribits (out : List (BitVec 3)) : BitVec 144 :=
  ofBits 144 fun j => (out.getD (j / 3) 0#3).getMsbD (j % 3)

/-- The trellis decoder (42_trellis.md R270 to R272, R276): never uncorrectable. -/
def decodeTrellis (tx : BitVec 196) : BitVec 144 × FecResult :=
  let out := decodePoints 0#3 (receivedPoints tx)
  (packTribits out.1, ⟨196, out.2, false⟩)

end Sys2Proof.Machine
end

