-- ==== Sys2Proof/Machine/Trellis.lean ====
section
/-! DEFINITION. The trellis commands (42_trellis.md R275, R276). -/

namespace Sys2Proof.Machine

/-- `TRL34.ENC` (42_trellis.md R275): 144 data bits to the 196-bit trellis vector. -/
def execTrl34Enc (flg : BitVec 8) (len : BitVec 16) (s : State) : Host.Outcome State Fault Refusal :=
  command false 144 flg len (fun b => resultPlain (encodeTrellis b)) s

/-- `TRL34.DEC` (42_trellis.md R276): a 196-bit trellis vector to 144 data bits and the count of invalid transitions. -/
def execTrl34Dec (flg : BitVec 8) (len : BitVec 16) (s : State) : Host.Outcome State Fault Refusal :=
  command false 196 flg len (fun tx => resultDecoded tx (decodeTrellis tx)) s

end Sys2Proof.Machine
end

