-- ==== Sys2Proof/Machine/Dispatch.lean ====
section
/-! DEFINITION. Performing a command: one arm per constructor. CMD already holds the word (10_state.md R35). -/

namespace Sys2Proof.Machine

def exec (i : Instr) (s : State) : Host.Outcome State Fault Refusal :=
  match i with
  | .ham743Par flg len => Sys2Proof.Machine.execHam743Par flg len s
  | .ham743Enc flg len => Sys2Proof.Machine.execHam743Enc flg len s
  | .ham743Dec flg len => Sys2Proof.Machine.execHam743Dec flg len s
  | .ham1393Par flg len => Sys2Proof.Machine.execHam1393Par flg len s
  | .ham1393Enc flg len => Sys2Proof.Machine.execHam1393Enc flg len s
  | .ham1393Dec flg len => Sys2Proof.Machine.execHam1393Dec flg len s
  | .ham15113Par flg len => Sys2Proof.Machine.execHam15113Par flg len s
  | .ham15113Enc flg len => Sys2Proof.Machine.execHam15113Enc flg len s
  | .ham15113Dec flg len => Sys2Proof.Machine.execHam15113Dec flg len s
  | .ham16114Par flg len => Sys2Proof.Machine.execHam16114Par flg len s
  | .ham16114Enc flg len => Sys2Proof.Machine.execHam16114Enc flg len s
  | .ham16114Dec flg len => Sys2Proof.Machine.execHam16114Dec flg len s
  | .ham17123Par flg len => Sys2Proof.Machine.execHam17123Par flg len s
  | .ham17123Enc flg len => Sys2Proof.Machine.execHam17123Enc flg len s
  | .ham17123Dec flg len => Sys2Proof.Machine.execHam17123Dec flg len s
  | .gol2087Par flg len => Sys2Proof.Machine.execGol2087Par flg len s
  | .gol2087Enc flg len => Sys2Proof.Machine.execGol2087Enc flg len s
  | .gol2087Dec flg len => Sys2Proof.Machine.execGol2087Dec flg len s
  | .gol23127Par flg len => Sys2Proof.Machine.execGol23127Par flg len s
  | .gol23127Enc flg len => Sys2Proof.Machine.execGol23127Enc flg len s
  | .gol23127Dec flg len => Sys2Proof.Machine.execGol23127Dec flg len s
  | .gol24128Par flg len => Sys2Proof.Machine.execGol24128Par flg len s
  | .gol24128Enc flg len => Sys2Proof.Machine.execGol24128Enc flg len s
  | .gol24128Dec flg len => Sys2Proof.Machine.execGol24128Dec flg len s
  | .qr1676Par flg len => Sys2Proof.Machine.execQr1676Par flg len s
  | .qr1676Enc flg len => Sys2Proof.Machine.execQr1676Enc flg len s
  | .qr1676Dec flg len => Sys2Proof.Machine.execQr1676Dec flg len s
  | .bptc196Enc flg len => Sys2Proof.Machine.execBptc196Enc flg len s
  | .bptc196Dec flg len => Sys2Proof.Machine.execBptc196Dec flg len s
  | .cachEnc flg len => Sys2Proof.Machine.execCachEnc flg len s
  | .cachDec flg len => Sys2Proof.Machine.execCachDec flg len s
  | .elcEnc flg len => Sys2Proof.Machine.execElcEnc flg len s
  | .elcDec flg len => Sys2Proof.Machine.execElcDec flg len s
  | .sbEnc flg len => Sys2Proof.Machine.execSbEnc flg len s
  | .sbDec flg len => Sys2Proof.Machine.execSbDec flg len s
  | .trl34Enc flg len => Sys2Proof.Machine.execTrl34Enc flg len s
  | .trl34Dec flg len => Sys2Proof.Machine.execTrl34Dec flg len s
  | .rs129Enc flg len => Sys2Proof.Machine.execRs129Enc flg len s
  | .rs129Synd flg len => Sys2Proof.Machine.execRs129Synd flg len s
  | .rs129Check flg len => Sys2Proof.Machine.execRs129Check flg len s
  | .rs129Corr flg len => Sys2Proof.Machine.execRs129Corr flg len s
  | .slcReset flg len => Sys2Proof.Machine.execSlcReset flg len s
  | .slcPush flg len => Sys2Proof.Machine.execSlcPush flg len s
  | .sbEncRc => Sys2Proof.Machine.execSbEncRc s
  | .sbDecRc => Sys2Proof.Machine.execSbDecRc s

end Sys2Proof.Machine
end

