-- ==== Sys2Proof/Machine/HostPort.lean ====
section
/-! DEFINITION. What one access from outside does (10_state.md R35; 20_memory.md R56; 70_reset_and_hazards.md R360). -/

namespace Sys2Proof.Machine

/-- A host write to CMD (10_state.md R35): the word is stored, then decoded and performed. A reserved operation code ends with
the status ILLEGAL_OPCODE, before any other check (60_exceptions.md R332, R336). -/
def performWord (w : Word) (s : State) : Host.Outcome State Fault Refusal :=
  match decode w with
  | .ok i => exec i { s with cmd := w }
  | .error (.illegalOpcode _) => .next (raise .illegalOpcode { s with cmd := w })

/-- One access; `s` no longer lists it. -/
def performAccess (a : HostAccess) (s : State) : Host.Outcome State Fault Refusal :=
  match a with
  | .writeCmd w => performWord w s
  | .writeDin mask value => .next (storeDin mask value s)
  | .writeResult _ _ => .next s
  | .read _ => .next s
  | .reset => .next (resetBlock s)

/-- The oldest pending access is performed; with none, the block waits (70_reset_and_hazards.md R360; log 12). -/
def serveHost (s : State) : Host.Outcome State Fault Refusal :=
  match s.inbox with
  | [] => .next s
  | a :: rest => performAccess a { s with inbox := rest }

/-- `s` with the command word that the low 32 bits of `w` hold as its next access, and with that command's operand in
DIN[0..LEN-1]: the operand is bit 32 onward of `w`, bits from `nbits` on being 0 (log 2). -/
def loadCommand (s : State) (nbits w : Nat) : State :=
  let bits := w % 2 ^ nbits
  let word := BitVec.ofNat 32 bits
  let value := ofBits 256 fun i => (bits / 2 ^ 32).testBit i
  { storeDin (dinMask 0 (wordLen word).toNat) value s with inbox := .writeCmd word :: s.inbox }

end Sys2Proof.Machine
end

