-- ==== Sys2Proof/Machine/Step.lean ====
section
/-! DEFINITION. One step of the machine: one access from outside. -/

namespace Sys2Proof.Machine

/-- One step: the oldest pending host access (20_memory.md R59; log 1). -/
def step (s : State) : Host.Outcome State Fault Refusal := serveHost s

/-- `s` set up so that the next step performs the command whose bits are `w` (log 2). -/
def State.withFetchWord (s : State) (nbits w : Nat) : State := loadCommand s nbits w

end Sys2Proof.Machine
end

