-- ==== Sys2Proof/Safety.lean ====
section
/-! DEFINITION. The terms statements are made in: what an outcome is, written from the rules and not from the meanings; the
reference forms of the codes (polynomial division over GF(2), multiplication in GF(256)); and the invariant of the block. -/

namespace Sys2Proof.Machine

/-! ### Outcomes -/

/-- Every bit of DIN[0..n-1] has been written since reset (10_state.md R34; 70_reset_and_hazards.md R362). -/
def OperandWritten (s : State) (n : Nat) : Prop := ∀ i, i < n → s.dinWritten.getMsbD i = true

/-- A command may read DIN[0..n-1]: all of it is written, or unwritten bits are read as held (10_state.md R34; log 4). -/
def OperandReadable (s : State) (n : Nat) : Prop := s.params.unwrittenInput = .held ∨ OperandWritten s n

/-- A command may read DIN[0..n-1], and it holds `v`. -/
def HoldsOperand {n : Nat} (s : State) (v : BitVec n) : Prop :=
  OperandReadable s n ∧ ∀ i, i < n → s.din.getMsbD i = v.getMsbD i

/-- The frame of a command that is not an assembler command: everything but the result registers is as before. -/
def SameBeside (s t : State) : Prop :=
  t.cmd = s.cmd ∧ t.din = s.din ∧ t.dinWritten = s.dinWritten ∧ t.slcCnt = s.slcCnt ∧ t.slcBuf = s.slcBuf ∧
    t.params = s.params ∧ t.inbox = s.inbox

/-- DOUT holds `out`, zeros above it, and OUT_LEN is its length (10_state.md R25). -/
def HasOutput {n : Nat} (t : State) (out : BitVec n) : Prop :=
  (∀ i, i < n → t.dout.getMsbD i = out.getMsbD i) ∧ (∀ i, n ≤ i → i < 256 → t.dout.getMsbD i = false) ∧
    t.outLen.toNat = n

/-- The outcome record is (b, e, u) (10_state.md R26). -/
def HasRecord (t : State) (b e : Nat) (u : Bool) : Prop :=
  t.resBits.toNat = b ∧ t.resErr.toNat = e ∧ t.resUnc = u

/-- The outcome is a next state with `result(out, b, e, u)` (00_scope.md R11) and nothing else changed. -/
def Completes {n : Nat} (o : Host.Outcome State Fault Refusal) (s : State) (out : BitVec n) (b e : Nat) (u : Bool) :
    Prop :=
  ∃ t, o = .next t ∧ HasOutput t out ∧ HasRecord t b e u ∧ t.status = 0x01#8 ∧ SameBeside s t

/-- An uncorrectable decode of `n` output bits: the record says so and, when the payload is as decided, it is `out`
(60_exceptions.md R338; log 7). -/
def CompletesUncorrectable {n : Nat} (o : Host.Outcome State Fault Refusal) (s : State) (out : BitVec n) (b e : Nat) :
    Prop :=
  ∃ payload : BitVec n, Completes o s payload b e true ∧ (s.params.bestEffort = .asDecided → payload = out)

/-- The registers an error status leaves (60_exceptions.md R334). -/
def Zeroed (t : State) : Prop :=
  t.dout = 0#256 ∧ t.outLen = 0#16 ∧ t.resBits = 0#16 ∧ t.resErr = 0#16 ∧ t.resUnc = false

/-- The vector of length `n` with bit `j` alone set. -/
def unitAt (n j : Nat) : BitVec n := ofBits n fun i => i == j

/-! ### The table of 30_encoding.md R71 -/

/-- OPC, LEN, OUT of every command (30_encoding.md R71); SLC.PUSH is listed with the OUT of its fourth push. -/
def tableR71 : List (BitVec 8 × Nat × Nat) :=
  [(0x10#8, 4, 3), (0x11#8, 4, 7), (0x12#8, 7, 7), (0x20#8, 9, 4), (0x21#8, 9, 13), (0x22#8, 13, 13),
   (0x30#8, 11, 4), (0x31#8, 11, 15), (0x32#8, 15, 15), (0x40#8, 11, 5), (0x41#8, 11, 16), (0x42#8, 16, 16),
   (0x50#8, 12, 5), (0x51#8, 12, 17), (0x52#8, 17, 17), (0x60#8, 8, 12), (0x61#8, 8, 20), (0x62#8, 20, 20),
   (0x70#8, 12, 11), (0x71#8, 12, 23), (0x72#8, 23, 23), (0x80#8, 12, 12), (0x81#8, 12, 24), (0x82#8, 24, 24),
   (0x90#8, 7, 9), (0x91#8, 7, 16), (0x92#8, 16, 16), (0xA0#8, 96, 196), (0xA1#8, 196, 96), (0xA2#8, 36, 68),
   (0xA3#8, 68, 36), (0xA4#8, 77, 128), (0xA5#8, 128, 77), (0xA6#8, 11, 32), (0xA7#8, 32, 11), (0xB0#8, 144, 196),
   (0xB1#8, 196, 144), (0xC0#8, 72, 96), (0xC1#8, 96, 24), (0xC2#8, 96, 1), (0xC3#8, 120, 96), (0xD0#8, 0, 0),
   (0xD1#8, 17, 36)]

/-- OPC is listed in R71. -/
def ListedOpc (opc : BitVec 8) : Prop := ∃ len out, (opc, len, out) ∈ tableR71

/-- FLG holds a reserved bit for the operation `opc` (60_exceptions.md R333). -/
def ReservedFlagsR333 (opc flg : BitVec 8) : Prop :=
  flg.extractLsb' 1 7 ≠ 0#7 ∨ (flg.getLsbD 0 = true ∧ opc ≠ 0xA6#8 ∧ opc ≠ 0xA7#8)

/-! ### Reference forms of the block codes (40_block_codes.md R101, R102) -/

/-- One step of long division by a polynomial of degree `m`: bring down the next coefficient, subtract if the degree is m. -/
def divisionStep (g m rem : Nat) (b : Bool) : Nat :=
  if (2 * rem + b.toNat).testBit m then (2 * rem + b.toNat) ^^^ g else 2 * rem + b.toNat

/-- `rem(a, g)` for the polynomial whose coefficients, highest degree first, are `coeffs`; deg g = m (00_scope.md R10). -/
def polyRemainder (g m : Nat) (coeffs : List Bool) : Nat := coeffs.foldl (divisionStep g m) 0

/-- A code as R101 gives it: its three commands, k, n−k, t, the degree m and the polynomial g as a number, and EXT. -/
structure BlockRow where
  par : BitVec 8 → BitVec 16 → Instr
  enc : BitVec 8 → BitVec 16 → Instr
  dec : BitVec 8 → BitVec 16 → Instr
  k : Nat
  r : Nat
  t : Nat
  m : Nat
  g : Nat
  ext : Bool

/-- The check bits R102 computes from the data bits `d 0 … d (k-1)`. -/
def divisionParity (row : BlockRow) (d : Nat → Bool) : List Bool :=
  let q := polyRemainder row.g row.m ((List.range row.k).map d ++ List.replicate row.m false)
  let p := (List.range row.m).map fun j => q.testBit (row.m - 1 - j)
  if row.ext then p ++ [(((List.range row.k).map d) ++ p).foldl xor false] else p

/-- The bits `c 0 … c (n-1)` are a codeword: the check bits are those R102 computes from the data bits. -/
def IsCodeword (row : BlockRow) (c : Nat → Bool) : Prop :=
  ∀ j, j < row.r → c (row.k + j) = (divisionParity row c).getD j false

/-- x³+x+1 -/
def rowH743 : BlockRow := ⟨.ham743Par, .ham743Enc, .ham743Dec, 4, 3, 1, 3, 0b1011, false⟩
/-- x⁴+x+1 -/
def rowH1393 : BlockRow := ⟨.ham1393Par, .ham1393Enc, .ham1393Dec, 9, 4, 1, 4, 0b10011, false⟩
/-- x⁴+x+1 -/
def rowH15113 : BlockRow := ⟨.ham15113Par, .ham15113Enc, .ham15113Dec, 11, 4, 1, 4, 0b10011, false⟩
/-- x⁴+x+1, EXT -/
def rowH16114 : BlockRow := ⟨.ham16114Par, .ham16114Enc, .ham16114Dec, 11, 5, 1, 4, 0b10011, true⟩
/-- x⁵+x²+1 -/
def rowH17123 : BlockRow := ⟨.ham17123Par, .ham17123Enc, .ham17123Dec, 12, 5, 1, 5, 0b100101, false⟩
/-- x¹¹+x¹⁰+x⁶+x⁵+x⁴+x²+1, EXT -/
def rowG2087 : BlockRow := ⟨.gol2087Par, .gol2087Enc, .gol2087Dec, 8, 12, 3, 11, 0b110001110101, true⟩
/-- x¹¹+x¹⁰+x⁶+x⁵+x⁴+x²+1 -/
def rowG23127 : BlockRow := ⟨.gol23127Par, .gol23127Enc, .gol23127Dec, 12, 11, 3, 11, 0b110001110101, false⟩
/-- x¹¹+x¹⁰+x⁶+x⁵+x⁴+x²+1, EXT -/
def rowG24128 : BlockRow := ⟨.gol24128Par, .gol24128Enc, .gol24128Dec, 12, 12, 3, 11, 0b110001110101, true⟩
/-- x⁸+x⁵+x⁴+x³+1, EXT -/
def rowQR1676 : BlockRow := ⟨.qr1676Par, .qr1676Enc, .qr1676Dec, 7, 9, 2, 8, 0b100111001, true⟩

/-- The nine rows of R101. -/
def blockRows : List BlockRow :=
  [rowH743, rowH1393, rowH15113, rowH16114, rowH17123, rowG2087, rowG23127, rowG24128, rowQR1676]

/-! ### Reference forms of the BPTC decode loops (41_bptc.md R205, R209, R214)

The row and column codes of every BPTC have t = 1, so a decode that corrects changes exactly one bit. -/

/-- `SYN_C(c) = 0`: the bits `c 0 … c (n-1)` are a codeword (40_block_codes.md R104). -/
def codewordTest (row : BlockRow) (c : Nat → Bool) : Bool :=
  (List.range row.r).all fun j => c (row.k + j) == (divisionParity row c).getD j false

/-- The bit that the decoder of a code with t = 1 corrects: the one whose change gives a codeword; none for a codeword and for
a word with no such bit (40_block_codes.md R105 to R107). -/
def wrongBit (row : BlockRow) (c : Nat → Bool) : Option Nat :=
  if codewordTest row c then none
  else (List.range (row.k + row.r)).find? fun j => codewordTest row fun i => c i ^^ (i == j)

/-- One column of the column step of R205: cell (a, c) is M[1 + 15a + c] (41_bptc.md R202). -/
def columnStepR205 (st : BitVec 196 × Bool) (c : Nat) : BitVec 196 × Bool :=
  match wrongBit rowH1393 fun a => st.1.getMsbD (1 + 15 * a + c) with
  | some a => (st.1 ^^^ unitAt 196 (1 + 15 * a + c), true)
  | none => st

/-- One row of the row step of R205. -/
def rowStepR205 (st : BitVec 196 × Bool) (a : Nat) : BitVec 196 × Bool :=
  match wrongBit rowH15113 fun c => st.1.getMsbD (1 + 15 * a + c) with
  | some c => (st.1 ^^^ unitAt 196 (1 + 15 * a + c), true)
  | none => st

/-- One pass of R205: columns 0..14, then rows 0..8; the flag is `fixing`. -/
def passR205 (m : BitVec 196) : BitVec 196 × Bool :=
  (List.range 9).foldl rowStepR205 ((List.range 15).foldl columnStepR205 (m, false))

/-- One data row of a pass of R209: under `unconditional` a correction is always committed, under `column_gated` only if the
bit it flips lies in a column whose parity is violated; `v` are the violations at the start of the pass. -/
def rowStepR209 (policy : RowPolicy) (row : BlockRow) (v : Nat → Bool) {n : Nat} (st : BitVec n × Bool) (a : Nat) :
    BitVec n × Bool :=
  match wrongBit row fun c => st.1.getMsbD (a * (row.k + row.r) + c) with
  | some c =>
    if policy = .unconditional ∨ v c = true then (st.1 ^^^ unitAt n (a * (row.k + row.r) + c), true) else st
  | none => st

/-- One pass of R209 over a flat matrix of `dataRows` rows and the parity row. -/
def passR209 (policy : RowPolicy) (row : BlockRow) (dataRows : Nat) (odd : Bool) {n : Nat} (m : BitVec n) :
    BitVec n × Bool :=
  (List.range dataRows).foldl
    (rowStepR209 policy row fun c =>
      (List.range (dataRows + 1)).foldl (fun acc a => acc ^^ m.getMsbD (a * (row.k + row.r) + c)) odd)
    (m, false)

/-- `repeat pass until not fixing or passes == 5` (R214): from `m₀` the loop runs `passes` passes and leaves `m`. Each pass
runs on what the pass before it left; every pass but the last fixed something; the last fixed nothing or was the fifth. -/
def LoopR214 {n : Nat} (pass : BitVec n → BitVec n × Bool) (m₀ m : BitVec n) (passes : Nat) : Prop :=
  1 ≤ passes ∧ passes ≤ 5 ∧ m = (fun x => (pass x).1)^[passes] m₀ ∧
    (∀ i, i + 1 < passes → (pass ((fun x => (pass x).1)^[i] m₀)).2 = true) ∧
    (passes < 5 → (pass ((fun x => (pass x).1)^[passes - 1] m₀)).2 = false)

/-! ### Reference forms of the trellis (42_trellis.md R263, R268) -/

/-- `point(s, t)` by the formula of R263, on numbers. -/
def pointFormula (s t : Nat) : Nat :=
  let v := (t + (s % 2 * 2 + s / 4 % 2 * 4)) % 8
  let rev := v % 2 * 4 + v / 2 % 2 * 2 + v / 4 % 2
  rev * 2 + (s / 2 + s / 4) % 2

/-- The transmit position of dibit `d` by the rule of R268: group g = (d mod 8) div 2, whose groups before it hold 26, 24, 24
entries, and within it the pair d div 8. -/
def dibitSlot (d : Nat) : Nat :=
  (if d % 8 / 2 = 0 then 0 else 26 + (d % 8 / 2 - 1) * 24) + d / 8 * 2 + d % 2

/-! ### Reference forms of GF(256) (43_reed_solomon.md R290, R291, R297) -/

/-- Multiplication by z modulo z⁸+z⁴+z³+z²+1 (R290). -/
def timesZ (v : Byte) : Byte := (v <<< 1) ^^^ if v.getMsbD 0 then 0x1D#8 else 0#8

/-- Multiplication in GF(256), one bit of `b` at a time, the highest first (R290). -/
def gfTimes (a b : Byte) : Byte :=
  (List.range 8).foldl (fun acc i => timesZ acc ^^^ if b.getMsbD i then a else 0#8) 0#8

/-- `α^n`, α the class of z (R291). -/
def alphaRef : Nat → Byte
  | 0 => 0x01#8
  | n + 1 => timesZ (alphaRef n)

/-- `c(α^j)` for the 12-byte word `b`, by Horner's rule, first byte highest degree (R294, R297). -/
def rootValue (b : BitVec 96) (j : Nat) : Byte :=
  (List.range 12).foldl (fun acc i => gfTimes acc (alphaRef j) ^^^ byteAt b i) 0#8

/-- The 12-byte word is a codeword (R295, R297). -/
def IsRsCodeword (b : BitVec 96) : Prop := rootValue b 1 = 0#8 ∧ rootValue b 2 = 0#8 ∧ rootValue b 3 = 0#8

/-- The 96-bit error pattern with the value `y` at byte `i`. -/
def byteError (i : Nat) (y : Byte) : BitVec 96 := setSlice 0#96 (8 * i) y

/-! ### The invariant -/

/-- What is true at reset and after every step: STATUS is a listed code (60_exceptions.md R331); SLC_CNT is 0..3 and the slots
from it on are zero (10_state.md R28; 41_bptc.md R229); DOUT is zero above OUT_LEN, which is at most 196 (10_state.md R25;
30_encoding.md R73); the record is within the bounds of 10_state.md R26 and 00_scope.md R16; every status but OK leaves the
result registers zero (60_exceptions.md R331, R334); SLC_PENDING means a fragment is held; an unwritten DIN bit is stored as
0 (the model's choice, log 3). -/
structure State.Inv (s : State) : Prop where
  status_listed : s.status = 0x00#8 ∨ s.status = 0x01#8 ∨ s.status = 0x02#8 ∨ s.status = 0x80#8 ∨ s.status = 0x81#8 ∨
    s.status = 0x82#8
  slcCnt_le : s.slcCnt.toNat ≤ 3
  slcBuf_free : ∀ p, 17 * s.slcCnt.toNat ≤ p → s.slcBuf.getMsbD p = false
  outLen_le : s.outLen.toNat ≤ 196
  dout_zero_above : ∀ i, s.outLen.toNat ≤ i → s.dout.getMsbD i = false
  record_bounds : s.resErr.toNat ≤ s.resBits.toNat ∧ s.resBits.toNat ≤ 196
  zeroed_unless_ok : s.status ≠ 0x01#8 → Zeroed s
  pending_holds : s.status = 0x02#8 → 1 ≤ s.slcCnt.toNat
  din_canonical : ∀ i, s.dinWritten.getMsbD i = false → s.din.getMsbD i = false

end Sys2Proof.Machine
end

