-- ==== Sys2Proof/Certificates/Slice0/Obligations.lean ====
section
/-! DEFINITION. The statements for the provers. Each docstring names the rules of spec/ it rests on; the terms are those of
Sys2Proof/Safety.lean, written from the rules. "The host writes w to CMD" is stated as: that access is the oldest of the
pending ones, `s.inbox = .writeCmd w :: rest` (log 1). -/

open Sys2Proof Sys2Proof.Machine

/-! ### Encoding -/

/-- Every command in the decoder's spelling is decoded from the word it is encoded as: no bit of OPC, FLG or LEN is dropped
(30_encoding.md R70, R76, R79). -/
def Obligations.DecodeOfEncodeIsTheCommand : Prop :=
  ∀ i : Instr, i.canonical = true → decode (encode i) = .ok i

/-- A decoded word is the word its command is encoded as (30_encoding.md R70, R79). That its command is in the decoder's
spelling, so that 0xA601000B and 0xA7010020 give `sbEncRc` and `sbDecRc` and never `sbEnc 1 11` and `sbDec 1 32`, is the
model's choice (log 8). -/
def Obligations.EncodeOfDecodeIsTheWord : Prop :=
  ∀ (w : Word) (i : Instr), decode w = .ok i → encode i = w ∧ i.canonical = true

/-- A word is rejected, by name, exactly when its OPC is not listed in R71, whatever FLG and LEN are (30_encoding.md R71, R76,
R77). -/
def Obligations.ReservedOpcodesAreRejected : Prop :=
  ∀ w : Word, decode w = .error (.illegalOpcode (wordOpc w)) ↔ ¬ ListedOpc (wordOpc w)

/-- Words the spec prints, one or more of every family, and the commands they stand for. -/
def Obligations.PrintedWordsDecode : Prop :=
  decode 0x10000004#32 = .ok (.ham743Par 0#8 4#16) ∧ decode 0x62000014#32 = .ok (.gol2087Dec 0#8 20#16) ∧
  decode 0x91000007#32 = .ok (.qr1676Enc 0#8 7#16) ∧ decode 0xA10000C4#32 = .ok (.bptc196Dec 0#8 196#16) ∧
  decode 0xA601000B#32 = .ok .sbEncRc ∧ decode 0xA7000020#32 = .ok (.sbDec 0#8 32#16) ∧
  decode 0xB0000090#32 = .ok (.trl34Enc 0#8 144#16) ∧ decode 0xC3000078#32 = .ok (.rs129Corr 0#8 120#16) ∧
  decode 0xD1000011#32 = .ok (.slcPush 0#8 17#16) ∧ decode 0x11010005#32 = .ok (.ham743Enc 1#8 5#16)

/-! ### Steps, checks, errors -/

/-- A pending write to CMD whose word decodes to `i` runs `i`, on the state with the word stored in CMD and the access taken
off the list (10_state.md R35; 20_memory.md R59). -/
def Obligations.StepRunsTheDecodedCommand : Prop :=
  ∀ (s : State) (w : Word) (rest : List HostAccess) (i : Instr),
    s.inbox = .writeCmd w :: rest → decode w = .ok i → step s = exec i { s with cmd := w, inbox := rest }

/-- The order of checks, the first that applies deciding (60_exceptions.md R336): an unlisted OPC, then reserved flags, then a
wrong LEN give their status; then, in a model that stops there, an unwritten operand bit gives the fault with the first such
bit; otherwise the command completes with OK or SLC_PENDING. That the model-only check 4 is a parameter, beside hardware, which
"reads whatever the bit holds" (10_state.md R34), is the model's choice (log 4). -/
def Obligations.ChecksDecideInOrder : Prop :=
  ∀ (s : State) (w : Word) (rest : List HostAccess), s.inbox = .writeCmd w :: rest →
    (¬ ListedOpc (wordOpc w) → ∃ t, step s = .next t ∧ t.status = 0x81#8) ∧
    ∀ required out, (wordOpc w, required, out) ∈ tableR71 →
      (ReservedFlagsR333 (wordOpc w) (wordFlags w) → ∃ t, step s = .next t ∧ t.status = 0x82#8) ∧
      (¬ ReservedFlagsR333 (wordOpc w) (wordFlags w) →
        ((wordLen w).toNat ≠ required → ∃ t, step s = .next t ∧ t.status = 0x80#8) ∧
        ((wordLen w).toNat = required →
          (OperandReadable s required → ∃ t, step s = .next t ∧ (t.status = 0x01#8 ∨ t.status = 0x02#8)) ∧
          ∀ j, j < required → s.params.unwrittenInput = .stops → s.dinWritten.getMsbD j = false → OperandWritten s j →
            step s = .fault (.unwrittenInput j { s with cmd := w, inbox := rest })))

/-- A command that ends with an error status zeroes the result registers, keeps the word in CMD, changes nothing else and
reads no bit of DIN (60_exceptions.md R334). -/
def Obligations.ErrorStatusEffects : Prop :=
  ∀ (s t : State) (w : Word) (rest : List HostAccess), s.inbox = .writeCmd w :: rest → step s = .next t →
    t.status = 0x80#8 ∨ t.status = 0x81#8 ∨ t.status = 0x82#8 →
      Zeroed t ∧ SameBeside { s with cmd := w, inbox := rest } t ∧
      ∀ din written : Port,
        step { s with din := din, dinWritten := written } = .next { t with din := din, dinWritten := written }

/-- The fault `UnwrittenInput` leaves CMD holding the word and every other register as it was, and names the first unwritten
bit of the operand (60_exceptions.md R350; 90_conflicts.md C10); it arises only where the model is set to stop on unwritten
bits, which hardware does not (10_state.md R34; log 4). -/
def Obligations.UnwrittenInputChangesOnlyCmd : Prop :=
  ∀ (s u : State) (w : Word) (rest : List HostAccess) (j : Nat), s.inbox = .writeCmd w :: rest →
    step s = .fault (.unwrittenInput j u) →
      u = { s with cmd := w, inbox := rest } ∧ s.params.unwrittenInput = .stops ∧ j < (wordLen w).toNat ∧ s.dinWritten.getMsbD j = false ∧
        OperandWritten s j

/-- No state and no access is refused: every command word has its status (30_encoding.md R71; 60_exceptions.md R331), and host
reads, host writes and the platform's reset have their effects (20_memory.md R56; 70_reset_and_hazards.md R360). That the step
with nothing pending is a step at all is the model's choice (log 12). -/
def Obligations.NoStepIsRefused : Prop :=
  ∀ (s : State) (r : Refusal), step s ≠ .refused r

/-- EVERY command, its flags legal, its LEN the required one and its operand readable, answers a next state: STATUS is OK, or
SLC_PENDING for a push that is not the fourth; OUT_LEN is the OUT of R71 (0 for such a push, and for SLC.RESET); DOUT is zero
above it; CMD, DIN and the written marks, the parameters and the pending accesses are unchanged, and so is the assembler
unless the command is SLC.RESET or SLC.PUSH (30_encoding.md R71; 10_state.md R24, R25, R28; 60_exceptions.md R331). That a
push with an SLC_CNT of 4 to 7, which no run reaches, completes as the fourth is the model's choice (log 14). -/
def Obligations.LegalCommandCompletes : Prop :=
  ∀ (i : Instr) (s : State) (required out : Nat), (i.opcode, required, out) ∈ tableR71 →
    ¬ ReservedFlagsR333 i.opcode i.flags → i.length.toNat = required → OperandReadable s required →
      ∃ t, exec i s = .next t ∧
        (if i.opcode = 0xD1#8 ∧ s.slcCnt.toNat < 3 then t.status = 0x02#8 ∧ t.outLen.toNat = 0
          else t.status = 0x01#8 ∧ t.outLen.toNat = out) ∧
        (∀ j, t.outLen.toNat ≤ j → t.dout.getMsbD j = false) ∧
        t.cmd = s.cmd ∧ t.din = s.din ∧ t.dinWritten = s.dinWritten ∧ t.params = s.params ∧ t.inbox = s.inbox ∧
        (i.opcode ≠ 0xD0#8 → i.opcode ≠ 0xD1#8 → t.slcCnt = s.slcCnt ∧ t.slcBuf = s.slcBuf)

/-- The outcome of a command is a function of CMD, DIN[0..LEN-1], the assembler and the parameters: two states that agree on
these, whatever else they hold (bits of DIN at and above LEN, old results), get the same results or the same fault
(10_state.md R24, R32; 60_exceptions.md R353). Where the payload of an uncorrectable decode is any value, it is the model's
function of CMD and the received vector (log 7). -/
def Obligations.OutcomeDependsOnlyOnTheOperand : Prop :=
  ∀ (i : Instr) (s₁ s₂ : State), s₁.cmd = s₂.cmd → s₁.params = s₂.params → s₁.slcCnt = s₂.slcCnt →
    s₁.slcBuf = s₂.slcBuf →
    (∀ j, j < i.length.toNat → s₁.dinWritten.getMsbD j = s₂.dinWritten.getMsbD j ∧
      s₁.din.getMsbD j = s₂.din.getMsbD j) →
    (∃ t₁ t₂, exec i s₁ = .next t₁ ∧ exec i s₂ = .next t₂ ∧ t₁.dout = t₂.dout ∧ t₁.outLen = t₂.outLen ∧
      t₁.status = t₂.status ∧ t₁.resBits = t₂.resBits ∧ t₁.resErr = t₂.resErr ∧ t₁.resUnc = t₂.resUnc ∧
      t₁.slcCnt = t₂.slcCnt ∧ t₁.slcBuf = t₂.slcBuf) ∨
    (∃ j u₁ u₂, exec i s₁ = .fault (.unwrittenInput j u₁) ∧ exec i s₂ = .fault (.unwrittenInput j u₂))

/-! ### Reset, host accesses, the invariant -/

/-- The platform's reset sets every register to its reset value and marks every DIN bit unwritten, from any state (10_state.md
R33, R34; 70_reset_and_hazards.md R360). That the parameters and the accesses still to come stay is the model's choice
(log 11). -/
def Obligations.ResetSetsEveryRegister : Prop :=
  ∀ (s : State) (rest : List HostAccess), s.inbox = .reset :: rest →
    ∃ t, step s = .next t ∧ t.cmd = 0#32 ∧ t.dinWritten = 0#256 ∧ t.dout = 0#256 ∧ t.outLen = 0#16 ∧
      t.status = 0x00#8 ∧ t.resBits = 0#16 ∧ t.resErr = 0#16 ∧ t.resUnc = false ∧ t.slcCnt = 0#3 ∧ t.slcBuf = 0#68 ∧
      t.params = s.params ∧ t.inbox = rest

/-- `State.reset` meets the invariant. The part about stored bits of unwritten DIN is the model's choice (log 3). -/
def Obligations.ResetMeetsTheInvariant : Prop := State.reset.Inv

/-- Every step keeps the invariant of the block, from every state that meets it (10_state.md R25, R26, R28; 60_exceptions.md
R331, R334; 41_bptc.md R229). The part about stored bits of unwritten DIN is the model's choice (log 3). -/
def Obligations.EveryStepKeepsTheInvariant : Prop :=
  ∀ s t : State, s.Inv → step s = .next t → t.Inv

/-- Only SLC.RESET, SLC.PUSH and the platform's reset change the assembler, whatever the outcome of the access (10_state.md R28;
60_exceptions.md R334). -/
def Obligations.OnlyAssemblerCommandsChangeTheAssembler : Prop :=
  ∀ (s t : State) (a : HostAccess) (rest : List HostAccess), s.inbox = a :: rest → step s = .next t →
    a ≠ .reset → (∀ w, a = .writeCmd w → wordOpc w ≠ 0xD0#8 ∧ wordOpc w ≠ 0xD1#8) →
      t.slcCnt = s.slcCnt ∧ t.slcBuf = s.slcBuf

/-- Only a host write to DIN and the platform's reset change DIN or its written marks (10_state.md R24, R34, R35;
20_memory.md R56). -/
def Obligations.OnlyDinWritesAndResetChangeDin : Prop :=
  ∀ (s t : State) (a : HostAccess) (rest : List HostAccess), s.inbox = a :: rest → step s = .next t →
    a ≠ .reset → (∀ mask value, a ≠ .writeDin mask value) → t.din = s.din ∧ t.dinWritten = s.dinWritten

/-- After a host write of `v` to DIN[0..n-1] the operand is written and holds `v`; bits from n on, and every other register,
are as before (10_state.md R24, R34; 20_memory.md R56). -/
def Obligations.DinWriteProvidesTheOperand : Prop :=
  ∀ (n : Nat) (v : BitVec n) (s : State) (rest : List HostAccess), n ≤ 256 → s.inbox = dinAccess 0 v :: rest →
    ∃ t, step s = .next t ∧ OperandWritten t n ∧ HoldsOperand t v ∧
      (∀ j, n ≤ j → t.din.getMsbD j = s.din.getMsbD j ∧ t.dinWritten.getMsbD j = s.dinWritten.getMsbD j) ∧
      t = { s with din := t.din, dinWritten := t.dinWritten, inbox := rest }

/-- A host write to DIN stores the bits its mask selects, marks them written, and leaves every other bit and every other
register: any set of bits (that a write may select any set is log 10), and in particular the range DIN[first..first+n-1] of
`dinAccess first v`, wherever it starts (10_state.md R24, R34; 20_memory.md R56). -/
def Obligations.DinWriteStoresTheSelectedBits : Prop :=
  (∀ (mask value : Port) (s : State) (rest : List HostAccess), s.inbox = .writeDin mask value :: rest →
    ∃ t, step s = .next t ∧
      (∀ j, t.din.getMsbD j = (if mask.getMsbD j then value.getMsbD j else s.din.getMsbD j) ∧
        t.dinWritten.getMsbD j = (mask.getMsbD j || s.dinWritten.getMsbD j)) ∧
      t = { s with din := t.din, dinWritten := t.dinWritten, inbox := rest }) ∧
  ∀ (first n : Nat) (v : BitVec n) (s : State) (rest : List HostAccess), first + n ≤ 256 →
    s.inbox = dinAccess first v :: rest →
    ∃ t, step s = .next t ∧
      (∀ i, i < n → t.din.getMsbD (first + i) = v.getMsbD i ∧ t.dinWritten.getMsbD (first + i) = true) ∧
      (∀ j, j < first ∨ first + n ≤ j →
        t.din.getMsbD j = s.din.getMsbD j ∧ t.dinWritten.getMsbD j = s.dinWritten.getMsbD j) ∧
      t = { s with din := t.din, dinWritten := t.dinWritten, inbox := rest }

/-- The nine host registers have the numbers 0 to 8 and the widths of R22, and a host read of each returns what it holds, for
DIN every written bit (10_state.md R22; 20_memory.md R56, R59). That where unwritten bits are read as held (log 4) a host read
of an UNWRITTEN bit of DIN, which by 10_state.md R34 has no defined value, returns the bit held is the model's choice
(log 5). -/
def Obligations.HostReadsReturnTheRegisters : Prop :=
  [HostReg.cmd, .din, .result .dout, .result .outLen, .result .status, .result .resBits, .result .resErr, .result .resUnc,
    .result .slcCnt].map (fun r => (regNumber r, regWidth r)) =
      [(0, 32), (1, 256), (2, 256), (3, 16), (4, 8), (5, 16), (6, 16), (7, 1), (8, 3)] ∧
  ∀ s : State, hostRead s .cmd = s.cmd ∧ hostRead s (.result .dout) = s.dout ∧ hostRead s (.result .outLen) = s.outLen ∧
    hostRead s (.result .status) = s.status ∧ hostRead s (.result .resBits) = s.resBits ∧
    hostRead s (.result .resErr) = s.resErr ∧ (hostRead s (.result .resUnc)).getMsbD 0 = s.resUnc ∧
    hostRead s (.result .slcCnt) = s.slcCnt ∧
    ∀ i, i < 256 → s.dinWritten.getMsbD i = true ∨ s.params.unwrittenInput = .held →
      (hostRead s .din).getMsbD i = s.din.getMsbD i

/-- The results of a command stay until the next one: only a host write to CMD and the platform's reset change DOUT, OUT_LEN,
STATUS, RES_BITS, RES_ERR or RES_UNC, and a host read of them in between returns what the command wrote
(70_reset_and_hazards.md R366; 10_state.md R35; 20_memory.md R56, R59). -/
def Obligations.ResultsStayUntilTheNextCommand : Prop :=
  ∀ (s t : State) (a : HostAccess) (rest : List HostAccess), s.inbox = a :: rest → step s = .next t →
    a ≠ .reset → (∀ w, a ≠ .writeCmd w) →
      t.cmd = s.cmd ∧ ∀ r : ResultReg, hostRead t (.result r) = hostRead s (.result r)

/-- Host reads, and host writes to read-only registers, change no register (20_memory.md R56). With nothing pending the block
waits: the model's step answers the same state (70_reset_and_hazards.md R360; log 12). -/
def Obligations.ReadsAndIgnoredWritesChangeNothing : Prop :=
  (∀ (s : State) (rest : List HostAccess) (r : HostReg), s.inbox = .read r :: rest →
    step s = .next { s with inbox := rest }) ∧
  (∀ (s : State) (rest : List HostAccess) (r : ResultReg) (v : Port), s.inbox = .writeResult r v :: rest →
    step s = .next { s with inbox := rest }) ∧
  ∀ s : State, s.inbox = [] → step s = .next s

/-- Whatever a command's outcome, a host read of CMD after it returns the last word written (10_state.md R23, R35). -/
def Obligations.CmdReadsBackTheLastWord : Prop :=
  ∀ (s : State) (w : Word) (rest : List HostAccess), s.inbox = .writeCmd w :: rest →
    (∀ t, step s = .next t → hostRead t .cmd = w) ∧
    ∀ j u, step s = .fault (.unwrittenInput j u) → hostRead u .cmd = w

/-! ### Block codes -/

/-- For each of the nine codes the command PAR puts out the check bits R102 defines by polynomial division; the XOR equations
of R108 to R116, from which its meaning computes them, agree with it bit for bit (40_block_codes.md R102). -/
def Obligations.ParityIsPolynomialDivision : Prop :=
  ∀ row ∈ blockRows, ∀ (s : State) (d : BitVec row.k), HoldsOperand s d →
    ∃ p : BitVec row.r, (∀ j, j < row.r → p.getMsbD j = (divisionParity row fun i => d.getMsbD i).getD j false) ∧
      (divisionParity row fun i => d.getMsbD i).length = row.r ∧
      Completes (exec (row.par 0#8 (BitVec.ofNat 16 row.k)) s) s p 0 0 false

/-- For each of the nine codes ENC puts out the data bits followed by the check bits that PAR puts out for the same data
(40_block_codes.md R103). -/
def Obligations.EncodeIsDataThenParity : Prop :=
  ∀ row ∈ blockRows, ∀ (s : State) (d : BitVec row.k), HoldsOperand s d →
    ∃ p : BitVec row.r, Completes (exec (row.par 0#8 (BitVec.ofNat 16 row.k)) s) s p 0 0 false ∧
      Completes (exec (row.enc 0#8 (BitVec.ofNat 16 row.k)) s) s (d ++ p) 0 0 false

/-- Bounded-distance decoding, for each of the nine codes and EVERY received word: if some pattern of at most t bits turns the
word into a codeword, DEC puts out that codeword and counts the pattern's bits; if none does, the word is uncorrectable, is put
out unchanged (when the payload is as decided) and nothing is counted (40_block_codes.md R105, R106, R107, R118). -/
def Obligations.DecodeIsBoundedDistance : Prop :=
  ∀ row ∈ blockRows, ∀ (s : State) (c : BitVec (row.k + row.r)), HoldsOperand s c →
    (∀ e : BitVec (row.k + row.r), weight e ≤ row.t → IsCodeword row (fun i => (c ^^^ e).getMsbD i) →
      Completes (exec (row.dec 0#8 (BitVec.ofNat 16 (row.k + row.r))) s) s (c ^^^ e) (row.k + row.r) (weight e) false) ∧
    ((∀ e : BitVec (row.k + row.r), weight e ≤ row.t → ¬ IsCodeword row fun i => (c ^^^ e).getMsbD i) →
      CompletesUncorrectable (exec (row.dec 0#8 (BitVec.ofNat 16 (row.k + row.r))) s) s c (row.k + row.r) 0)

/-- The perfect codes Hamming(7,4,3), Hamming(15,11,3) and Golay(23,12,7) never report an uncorrectable word
(40_block_codes.md R122, R128, R140). -/
def Obligations.PerfectCodesAlwaysCorrect : Prop :=
  ∀ row ∈ [rowH743, rowH15113, rowG23127], ∀ s : State, OperandReadable s (row.k + row.r) →
    ∃ t, exec (row.dec 0#8 (BitVec.ofNat 16 (row.k + row.r))) s = .next t ∧ t.resUnc = false

/-- Beyond-radius detection: in the codes with an overall parity bit, t+1 wrong bits of any codeword are always reported
uncorrectable, as Golay(24,12,8) with 4 flips (40_block_codes.md R118, R131, R137, R143, R146). -/
def Obligations.OneErrorTooManyIsDetected : Prop :=
  ∀ row ∈ [rowH16114, rowG2087, rowG24128, rowQR1676], ∀ (s : State) (x e : BitVec (row.k + row.r)),
    IsCodeword row (fun i => x.getMsbD i) → weight e = row.t + 1 → HoldsOperand s (x ^^^ e) →
      CompletesUncorrectable (exec (row.dec 0#8 (BitVec.ofNat 16 (row.k + row.r))) s) s (x ^^^ e) (row.k + row.r) 0

/-- What every decode command counts, the fourth SLC.PUSH apart (FourPushesDecodeAsCach says that it counts as CACH.DEC does):
bits_checked, and the bound of errors_corrected (40_block_codes.md R107; 41_bptc.md R206, R213; 42_trellis.md R272;
43_reed_solomon.md R301). The bounds 51, 112 and 16 of CACH, ELC and SB are their data rows: the parity row is never corrected
(41_bptc.md R209 to R212). -/
def Obligations.DecodeCountsAreBounded : Prop :=
  (∀ row ∈ blockRows, ∀ s : State, OperandReadable s (row.k + row.r) →
    ∃ t, exec (row.dec 0#8 (BitVec.ofNat 16 (row.k + row.r))) s = .next t ∧ t.resBits.toNat = row.k + row.r ∧
      t.resErr.toNat ≤ row.t ∧ (t.resUnc = true → t.resErr.toNat = 0)) ∧
  ∀ entry ∈ [(Instr.bptc196Dec 0#8 196#16, 196, 196, 195), (.cachDec 0#8 68#16, 68, 68, 51),
      (.elcDec 0#8 128#16, 128, 128, 112), (.sbDec 0#8 32#16, 32, 32, 16), (.sbDecRc, 32, 32, 16),
      (.trl34Dec 0#8 196#16, 196, 196, 49), (.rs129Corr 0#8 120#16, 120, 96, 8)],
    ∀ s : State, OperandReadable s entry.2.1 →
      ∃ t, exec entry.1 s = .next t ∧ t.resBits.toNat = entry.2.2.1 ∧ t.resErr.toNat ≤ entry.2.2.2

/-! ### BPTC -/

/-- BPTC196.ENC: the transmit vector is the interleaving, `TX[(a·181) mod 196] = M[a]`, of a matrix M that holds the information
bits where R203 puts them, 0 in M[0] and in the reserved bits, and in which each of the 13 rows is a Hamming(15,11,3) codeword
and each of the 15 columns a Hamming(13,9,3) codeword (41_bptc.md R202, R203, R204, R207). -/
def Obligations.Bptc196EncodeFillsTheProductCode : Prop :=
  ∀ (s : State) (info : BitVec 96), HoldsOperand s info →
    ∃ tx m : BitVec 196, Completes (exec (.bptc196Enc 0#8 96#16) s) s tx 0 0 false ∧
      (∀ a, a < 196 → tx.getMsbD (a * 181 % 196) = m.getMsbD a) ∧
      (∀ a, a < 4 → m.getMsbD a = false) ∧ (∀ i, i < 8 → m.getMsbD (4 + i) = info.getMsbD i) ∧
      (∀ r c, r < 8 → c < 11 → m.getMsbD (1 + 15 * (r + 1) + c) = info.getMsbD (8 + 11 * r + c)) ∧
      (∀ a, a < 13 → IsCodeword rowH15113 fun c => m.getMsbD (1 + 15 * a + c)) ∧
      ∀ c, c < 15 → IsCodeword rowH1393 fun a => m.getMsbD (1 + 15 * a + c)

/-- BPTC196.DEC of EVERY received vector: from the deinterleaved vector M0 the loop of R205 runs to its end, by the reference
passes of Safety; errors_corrected is the number of cells in which the final matrix differs from M0, M[0] apart;
uncorrectable is 0 exactly when every column is a Hamming(13,9,3) codeword and every data row a Hamming(15,11,3) codeword; and
the information bits are those of the final matrix (when uncorrectable, if the payload is as decided) (41_bptc.md R203, R205,
R206, R207, R213, R214). -/
def Obligations.Bptc196DecodeReportsItsMatrix : Prop :=
  ∀ (s : State) (tx : BitVec 196), HoldsOperand s tx →
    ∃ (m₀ m : BitVec 196) (passes : Nat) (info : BitVec 96) (u : Bool),
      (∀ a, a < 196 → m₀.getMsbD a = tx.getMsbD (a * 181 % 196)) ∧ LoopR214 passR205 m₀ m passes ∧
      Completes (exec (.bptc196Dec 0#8 196#16) s) s info 196
        ((List.range 195).countP fun a => m.getMsbD (a + 1) != m₀.getMsbD (a + 1)) u ∧
      (u = false ↔ (∀ c, c < 15 → IsCodeword rowH1393 fun a => m.getMsbD (1 + 15 * a + c)) ∧
        ∀ a, a < 9 → IsCodeword rowH15113 fun c => m.getMsbD (1 + 15 * a + c)) ∧
      (u = false ∨ s.params.bestEffort = .asDecided → (∀ i, i < 8 → info.getMsbD i = m.getMsbD (4 + i)) ∧
        ∀ r c, r < 8 → c < 11 → info.getMsbD (8 + 11 * r + c) = m.getMsbD (1 + 15 * (r + 1) + c))

/-- What ENC puts out, DEC turns back into the information bits, with nothing corrected: for every information word of
BPTC(196,96) (41_bptc.md R215). -/
def Obligations.Bptc196RoundTrip : Prop :=
  ∀ (s : State) (info : BitVec 96), HoldsOperand s info →
    ∃ tx : BitVec 196, Completes (exec (.bptc196Enc 0#8 96#16) s) s tx 0 0 false ∧
      ∀ s' : State, HoldsOperand s' tx → Completes (exec (.bptc196Dec 0#8 196#16) s') s' info 196 0 false

/-- Every single transmit-bit error of BPTC(196,96) is corrected and counted once, but for TX[0], which carries the unused
M[0] and is ignored (41_bptc.md R215). -/
def Obligations.Bptc196CorrectsEverySingleError : Prop :=
  ∀ (s : State) (info : BitVec 96), HoldsOperand s info →
    ∃ tx : BitVec 196, Completes (exec (.bptc196Enc 0#8 96#16) s) s tx 0 0 false ∧
      ∀ (s' : State) (j : Nat), j < 196 → HoldsOperand s' (tx ^^^ unitAt 196 j) →
        Completes (exec (.bptc196Dec 0#8 196#16) s') s' info 196 (if j = 0 then 0 else 1) false

/-- Two errors of BPTC(196,96), at the matrix positions a < b: with the unused M[0] among them the other one is corrected and
counted; in different columns, or in one column both in data rows 0..8, both are corrected and counted (41_bptc.md R202, R207,
R215). -/
def Obligations.Bptc196CorrectsTwoErrors : Prop :=
  ∀ (s : State) (info : BitVec 96), HoldsOperand s info →
    ∃ tx : BitVec 196, Completes (exec (.bptc196Enc 0#8 96#16) s) s tx 0 0 false ∧
      ∀ (s' : State) (a b : Nat), a < b → b < 196 →
        HoldsOperand s' (tx ^^^ unitAt 196 (a * 181 % 196) ^^^ unitAt 196 (b * 181 % 196)) →
        (a = 0 → Completes (exec (.bptc196Dec 0#8 196#16) s') s' info 196 1 false) ∧
        (0 < a → (a - 1) % 15 ≠ (b - 1) % 15 ∨ (b - 1) / 15 < 9 →
          Completes (exec (.bptc196Dec 0#8 196#16) s') s' info 196 2 false)

/-- Two errors of BPTC(196,96) in one column with at least one in a check row, 630 pairs, rows a < b with 9 ≤ b: in each of the
15 columns the same 16 pairs of rows fail, 240 in all; a failing pair leaves the information bits right, is uncorrectable and
counts 0 or 2; the others are corrected and counted (41_bptc.md R202, R207, R215). -/
def Obligations.Bptc196CheckRowPairs : Prop :=
  ∃ failing : List (Nat × Nat), failing.length = 16 ∧ failing.Nodup ∧ (∀ p ∈ failing, p.1 < p.2 ∧ 9 ≤ p.2 ∧ p.2 < 13) ∧
    ∀ (s : State) (info : BitVec 96), HoldsOperand s info →
      ∃ tx : BitVec 196, Completes (exec (.bptc196Enc 0#8 96#16) s) s tx 0 0 false ∧
        ∀ (s' : State) (c a b : Nat), c < 15 → a < b → 9 ≤ b → b < 13 →
          HoldsOperand s'
            (tx ^^^ unitAt 196 ((1 + 15 * a + c) * 181 % 196) ^^^ unitAt 196 ((1 + 15 * b + c) * 181 % 196)) →
          ((a, b) ∈ failing →
            CompletesUncorrectable (exec (.bptc196Dec 0#8 196#16) s') s' info 196 0 ∨
            CompletesUncorrectable (exec (.bptc196Dec 0#8 196#16) s') s' info 196 2) ∧
          ((a, b) ∉ failing → Completes (exec (.bptc196Dec 0#8 196#16) s') s' info 196 2 false)

/-- The loop every BPTC decoder runs is that of R214, with the ceiling of five passes: `repeatPasses` with `passLimit` meets the
reference form of the loop for any pass, and the decoder of BPTC(196,96) and that of the parity-column codes put out what the
matrix that loop leaves says, from the received matrix (41_bptc.md R205, R209, R214). What their passes do is said by
Bptc196DecodeReportsItsMatrix and ParityColumnDecodersReportTheirMatrix. -/
def Obligations.PassLoopStopsAtTheCeiling : Prop :=
  (∀ (n : Nat) (pass : BitVec n → BitVec n × Bool) (m₀ : BitVec n),
    LoopR214 pass m₀ (repeatPasses pass passLimit m₀).1 (repeatPasses pass passLimit m₀).2) ∧
  (∀ tx : BitVec 196, ∃ (m : BitVec 196) (passes : Nat), LoopR214 pass196 (gather idx196 tx) m passes ∧
    decode196 tx = (takeInfo196 m, ⟨196, changed196 m (gather idx196 tx), inconsistent196 m⟩)) ∧
  ∀ (k r n dataRows : Nat) (C : BlockCode k r) (policy : RowPolicy) (odd : Bool) (map : List Nat) (tx : BitVec n),
    ∃ (m : BitVec n) (passes : Nat), LoopR214 (passParity policy C dataRows odd) (scatter map tx) m passes ∧
      decodeParity policy C dataRows odd map tx =
        (takeInfo C dataRows m, ⟨n, weight (m ^^^ scatter map tx), inconsistentParity C dataRows odd m⟩)

/-- The encoder of a parity-column code: the transmit vector is the matrix read through the map; each data row is a codeword of
the row code and begins with its information bits; the last row is the column parity (41_bptc.md R208). -/
def Sys2Proof.Machine.ParityEncodes (enc : Instr) (row : BlockRow) (dataRows : Nat) (odd : Bool) (map : Nat → Nat) :
    Prop :=
  ∀ (s : State) (info : BitVec (dataRows * row.k)), HoldsOperand s info →
    ∃ tx m : BitVec ((dataRows + 1) * (row.k + row.r)), Completes (exec enc s) s tx 0 0 false ∧
      (∀ j, j < (dataRows + 1) * (row.k + row.r) → tx.getMsbD j = m.getMsbD (map j)) ∧
      (∀ a, a < dataRows → IsCodeword row (fun c => m.getMsbD (a * (row.k + row.r) + c)) ∧
        ∀ i, i < row.k → m.getMsbD (a * (row.k + row.r) + i) = info.getMsbD (a * row.k + i)) ∧
      ∀ c, c < row.k + row.r → m.getMsbD (dataRows * (row.k + row.r) + c) =
        (List.range dataRows).foldl (fun acc a => acc ^^ m.getMsbD (a * (row.k + row.r) + c)) odd

/-- CACH, embedded LC and single burst, even and odd, are encoded as R208 to R212 say (41_bptc.md R208, R210, R211, R212). -/
def Obligations.ParityColumnEncoders : Prop :=
  ParityEncodes (.cachEnc 0#8 36#16) rowH17123 3 false (fun j => j % 4 * 17 + j / 4) ∧
  ParityEncodes (.elcEnc 0#8 77#16) rowH16114 7 false (fun j => j % 8 * 16 + j / 8) ∧
  ParityEncodes (.sbEnc 0#8 11#16) rowH16114 1 false (fun j => 17 * j % 32) ∧
  ParityEncodes (.sbEnc 1#8 11#16) rowH16114 1 true (fun j => 17 * j % 32) ∧
  ParityEncodes .sbEncRc rowH16114 1 true (fun j => 17 * j % 32)

/-- The decoder of a parity-column code on EVERY received vector: from the received matrix M0, `M0flat[MAP(j)] = TX[j]`, the
loop of R209 runs to its end under the machine's row policy, by the reference passes of Safety; the parity row is as received;
errors_corrected is the number of cells that differ from the received ones; uncorrectable is 0 exactly when every data row is a
codeword and every column parity holds; the information bits are those of the final matrix (41_bptc.md R209, R213, R214). -/
def Sys2Proof.Machine.ParityReports (dec : Instr) (row : BlockRow) (dataRows : Nat) (odd : Bool) (map : Nat → Nat) :
    Prop :=
  ∀ (s : State) (tx : BitVec ((dataRows + 1) * (row.k + row.r))), HoldsOperand s tx →
    ∃ (m₀ m : BitVec ((dataRows + 1) * (row.k + row.r))) (passes : Nat) (info : BitVec (dataRows * row.k)) (u : Bool),
      (∀ j, j < (dataRows + 1) * (row.k + row.r) → m₀.getMsbD (map j) = tx.getMsbD j) ∧
      LoopR214 (passR209 s.params.rowPolicy row dataRows odd) m₀ m passes ∧
      Completes (exec dec s) s info ((dataRows + 1) * (row.k + row.r)) (weight (m ^^^ m₀)) u ∧
      (∀ c, dataRows * (row.k + row.r) ≤ c → m.getMsbD c = m₀.getMsbD c) ∧
      (u = false ↔ (∀ a, a < dataRows → IsCodeword row fun c => m.getMsbD (a * (row.k + row.r) + c)) ∧
        ∀ c, c < row.k + row.r → m.getMsbD (dataRows * (row.k + row.r) + c) =
          (List.range dataRows).foldl (fun acc a => acc ^^ m.getMsbD (a * (row.k + row.r) + c)) odd) ∧
      (u = false ∨ s.params.bestEffort = .asDecided → ∀ a i, a < dataRows → i < row.k →
        info.getMsbD (a * row.k + i) = m.getMsbD (a * (row.k + row.r) + i))

/-- CACH, embedded LC and single burst, even and odd, for every received vector and under each row policy: the decoder runs the
loop of R209 with that policy, and RES_ERR, RES_UNC and the information bits are true of the matrix it ends with, whose parity
row is as received (41_bptc.md R209 to R214). -/
def Obligations.ParityColumnDecodersReportTheirMatrix : Prop :=
  ParityReports (.cachDec 0#8 68#16) rowH17123 3 false (fun j => j % 4 * 17 + j / 4) ∧
  ParityReports (.elcDec 0#8 128#16) rowH16114 7 false (fun j => j % 8 * 16 + j / 8) ∧
  ParityReports (.sbDec 0#8 32#16) rowH16114 1 false (fun j => 17 * j % 32) ∧
  ParityReports (.sbDec 1#8 32#16) rowH16114 1 true (fun j => 17 * j % 32) ∧
  ParityReports .sbDecRc rowH16114 1 true (fun j => 17 * j % 32)

/-- ENC then DEC of a parity-column code, and what one wrong transmit bit does: nothing wrong gives the information
bits and (n, 0, 0); a wrong bit of a data row is corrected, (n, 1, 0); a wrong bit of the parity row is never corrected,
(n, 0, 1), the information bits right (41_bptc.md R216). -/
def Sys2Proof.Machine.ParityRoundTrip (enc dec : Instr) (k n dataBits : Nat) (map : Nat → Nat) : Prop :=
  ∀ (s : State) (info : BitVec k), HoldsOperand s info →
    ∃ tx : BitVec n, Completes (exec enc s) s tx 0 0 false ∧
      ∀ s' : State,
        (HoldsOperand s' tx → Completes (exec dec s') s' info n 0 false) ∧
        ∀ j, j < n → HoldsOperand s' (tx ^^^ unitAt n j) →
          (map j < dataBits → Completes (exec dec s') s' info n 1 false) ∧
          (dataBits ≤ map j → CompletesUncorrectable (exec dec s') s' info n 0)

/-- Round trip and single errors of CACH, embedded LC and single burst, even and odd (41_bptc.md R216 for the policy
`unconditional`; R208 and R209 give the same under `column_gated`). -/
def Obligations.ParityColumnRoundTrips : Prop :=
  ParityRoundTrip (.cachEnc 0#8 36#16) (.cachDec 0#8 68#16) 36 68 51 (fun j => j % 4 * 17 + j / 4) ∧
  ParityRoundTrip (.elcEnc 0#8 77#16) (.elcDec 0#8 128#16) 77 128 112 (fun j => j % 8 * 16 + j / 8) ∧
  ParityRoundTrip (.sbEnc 0#8 11#16) (.sbDec 0#8 32#16) 11 32 16 (fun j => 17 * j % 32) ∧
  ParityRoundTrip .sbEncRc .sbDecRc 11 32 16 (fun j => 17 * j % 32)

/-- Two wrong bits in one data row of a parity-column codeword are always reported uncorrectable. -/
def Sys2Proof.Machine.RowPairReported (enc dec : Instr) (k n width dataRows : Nat) (map : Nat → Nat) : Prop :=
  ∀ (s : State) (info : BitVec k), HoldsOperand s info →
    ∃ tx : BitVec n, Completes (exec enc s) s tx 0 0 false ∧
      ∀ (s' : State) (i j : Nat), i < n → j < n → i ≠ j → map i / width = map j / width → map i / width < dataRows →
        HoldsOperand s' (tx ^^^ unitAt n i ^^^ unitAt n j) →
          ∃ t, exec dec s' = .next t ∧ t.resBits.toNat = n ∧ t.resUnc = true

/-- Two errors in the same data row of CACH, embedded LC or single burst, even and odd: uncorrectable is 1 (41_bptc.md R216 for
the policy `unconditional`; R208 and R209 give the same under `column_gated`). -/
def Obligations.TwoErrorsInADataRowAreReported : Prop :=
  RowPairReported (.cachEnc 0#8 36#16) (.cachDec 0#8 68#16) 36 68 17 3 (fun j => j % 4 * 17 + j / 4) ∧
  RowPairReported (.elcEnc 0#8 77#16) (.elcDec 0#8 128#16) 77 128 16 7 (fun j => j % 8 * 16 + j / 8) ∧
  RowPairReported (.sbEnc 0#8 11#16) (.sbDec 0#8 32#16) 11 32 16 1 (fun j => 17 * j % 32) ∧
  RowPairReported .sbEncRc .sbDecRc 11 32 16 1 (fun j => 17 * j % 32)

/-- A single-burst vector decoded with the wrong column parity gives its information bits and (32, 0, 1) (41_bptc.md R227). -/
def Obligations.WrongColumnParityIsReported : Prop :=
  ∀ (s : State) (info : BitVec 11), HoldsOperand s info →
    ∃ even odd : BitVec 32, Completes (exec (.sbEnc 0#8 11#16) s) s even 0 0 false ∧
      Completes (exec .sbEncRc s) s odd 0 0 false ∧
      ∀ s' : State, (HoldsOperand s' even → CompletesUncorrectable (exec .sbDecRc s') s' info 32 0) ∧
        (HoldsOperand s' odd → CompletesUncorrectable (exec (.sbDec 0#8 32#16) s') s' info 32 0)

/-- The pseudo-command rows are SB.ENC and SB.DEC with FLG.ODD = 1 and the required LEN (30_encoding.md R80). -/
def Obligations.ReverseChannelFormsAreOdd : Prop :=
  ∀ s : State, exec .sbEncRc s = exec (.sbEnc 1#8 11#16) s ∧ exec .sbDecRc s = exec (.sbDec 1#8 32#16) s

/-! ### Short-LC assembler -/

/-- SLC.RESET empties the assembler and completes with the empty result (41_bptc.md R228). -/
def Obligations.SlcResetEmptiesTheAssembler : Prop :=
  ∀ s : State, ∃ t, exec (.slcReset 0#8 0#16) s = .next t ∧ t.slcBuf = 0#68 ∧ t.slcCnt = 0#3 ∧ t.status = 0x01#8 ∧
    Zeroed t ∧ SameBeside { s with slcBuf := 0#68, slcCnt := 0#3 } t

/-- SLC.PUSH with fewer than three fragments held stores the fragment in the next slot, leaves the other slots, counts it and
is pending with no result (41_bptc.md R217, R229). -/
def Obligations.SlcPushStoresTheFragment : Prop :=
  ∀ (s : State) (f : BitVec 17), HoldsOperand s f → s.slcCnt.toNat < 3 →
    ∃ t, exec (.slcPush 0#8 17#16) s = .next t ∧ t.slcCnt.toNat = s.slcCnt.toNat + 1 ∧
      (∀ p, p < 68 → t.slcBuf.getMsbD p =
        if 17 * s.slcCnt.toNat ≤ p ∧ p < 17 * s.slcCnt.toNat + 17 then f.getMsbD (p - 17 * s.slcCnt.toNat)
        else s.slcBuf.getMsbD p) ∧
      t.status = 0x02#8 ∧ Zeroed t ∧ SameBeside { s with slcBuf := t.slcBuf, slcCnt := t.slcCnt } t

/-- A Short-LC message, SLC.RESET and four pushes of any fragments, written by the host from any state, leaves the results
CACH.DEC gives on the four fragments in order, and the assembler empty (30_encoding.md R80; 41_bptc.md R217, R229). The
payload of an uncorrectable message is compared only when it is as decided. -/
def Obligations.FourPushesDecodeAsCach : Prop :=
  ∀ (s s' : State) (f₀ f₁ f₂ f₃ : BitVec 17),
    s.inbox = [.writeCmd 0xD0000000#32, dinAccess 0 f₀, .writeCmd 0xD1000011#32, dinAccess 0 f₁,
      .writeCmd 0xD1000011#32, dinAccess 0 f₂, .writeCmd 0xD1000011#32, dinAccess 0 f₃, .writeCmd 0xD1000011#32] →
    s'.params = s.params → HoldsOperand s' (f₀ ++ f₁ ++ f₂ ++ f₃) →
    ∃ t t', Host.Core.run core 9 s = .next t ∧ exec (.cachDec 0#8 68#16) s' = .next t' ∧
      (s.params.bestEffort = .asDecided → t.dout = t'.dout) ∧ t.outLen = t'.outLen ∧ t.resBits = t'.resBits ∧
      t.resErr = t'.resErr ∧ t.resUnc = t'.resUnc ∧ t.status = 0x01#8 ∧ t'.status = 0x01#8 ∧ t.slcCnt = 0#3 ∧
      t.slcBuf = 0#68

/-! ### Trellis -/

/-- The table of R264 is the formula of R263, and from each state the eight points are distinct and of one parity: even from
states 0, 1, 6, 7 and odd from states 2, 3, 4, 5 (42_trellis.md R263, R264). -/
def Obligations.TrellisTableIsTheFormula : Prop :=
  ∀ s : BitVec 3, (∀ t : BitVec 3, (trellisPoint s t).toNat = pointFormula s.toNat t.toNat ∧
      (trellisPoint s t).toNat % 2 = if s ∈ [0#3, 1#3, 6#3, 7#3] then 0 else 1) ∧
    ∀ t t' : BitVec 3, trellisPoint s t = trellisPoint s t' → t = t'

/-- TRL34.ENC: for every symbol i = 0..48, the four bits in the transmit positions that R268 gives its two dibits are the bits
of the constellation pair of the point that R263 gives for tribit i from the state tribit i−1 (state 0 before the first), tribit
48 being the flush tribit 0 (42_trellis.md R262, R263, R265 to R268, R275). -/
def Obligations.TrellisEncodePlacesEverySymbol : Prop :=
  ∀ (s : State) (b : BitVec 144), HoldsOperand s b →
    ∃ tx : BitVec 196, Completes (exec (.trl34Enc 0#8 144#16) s) s tx 0 0 false ∧
      ∀ i, i < 49 →
        let tribit := fun n => if n < 48 then (slice b (3 * n) 3).toNat else 0
        let point := BitVec.ofNat 4 (pointFormula (if i = 0 then 0 else tribit (i - 1)) (tribit i))
        slice tx (2 * dibitSlot (2 * i)) 2 = dibitBits (constellation point).1 ∧
        slice tx (2 * dibitSlot (2 * i + 1)) 2 = dibitBits (constellation point).2

/-- What TRL34.ENC puts out, TRL34.DEC turns back into the 144 data bits with no invalid transition (42_trellis.md R273). -/
def Obligations.TrellisRoundTrip : Prop :=
  ∀ (s : State) (b : BitVec 144), HoldsOperand s b →
    ∃ tx : BitVec 196, Completes (exec (.trl34Enc 0#8 144#16) s) s tx 0 0 false ∧
      ∀ s' : State, HoldsOperand s' tx → Completes (exec (.trl34Dec 0#8 196#16) s') s' b 196 0 false

/-- TRL34.DEC of EVERY received vector, symbol by symbol: from the last tribit put out (0 before the first), a point that some
tribit gives puts out that tribit; any other puts out the last tribit again and counts one error; the data are the first 48
tribits and the record is (196, errors, 0) (42_trellis.md R270, R271, R272). -/
def Obligations.TrellisDecodeFollowsThePolicy : Prop :=
  ∀ (s : State) (tx : BitVec 196), HoldsOperand s tx →
    ∃ (b : BitVec 144) (points : List (BitVec 4)) (out : List (BitVec 3)),
      let state := fun i => if i = 0 then 0#3 else out.getD (i - 1) 0#3
      let point := fun i => points.getD i 0#4
      Completes (exec (.trl34Dec 0#8 196#16) s) s b 196
        ((List.range 49).countP fun i => decide (∀ t : BitVec 3, pointFormula (state i).toNat t.toNat ≠ (point i).toNat))
        false ∧
      (∀ i, i < 48 → slice b (3 * i) 3 = out.getD i 0#3) ∧
      ∀ i, i < 49 →
        slice tx (2 * dibitSlot (2 * i)) 2 = dibitBits (constellation (point i)).1 ∧
        slice tx (2 * dibitSlot (2 * i + 1)) 2 = dibitBits (constellation (point i)).2 ∧
        (pointFormula (state i).toNat (out.getD i 0#3).toNat = (point i).toNat ∨
          (∀ t : BitVec 3, pointFormula (state i).toNat t.toNat ≠ (point i).toNat) ∧ out.getD i 0#3 = state i)

/-- TRL34.DEC counts no error exactly when the received points are the path of some tribits from state 0, and then puts out
the first 48 of them; it is never uncorrectable (42_trellis.md R270, R271, R272). -/
def Obligations.TrellisDecodeCountsExactlyTheOffPathWords : Prop :=
  ∀ (s : State) (tx : BitVec 196), HoldsOperand s tx →
    ∃ (b : BitVec 144) (errors : Nat), Completes (exec (.trl34Dec 0#8 196#16) s) s b 196 errors false ∧ errors ≤ 49 ∧
      (errors = 0 ↔ ∃ tribits : List (BitVec 3), pointsFrom 0#3 tribits = receivedPoints tx) ∧
      ∀ tribits : List (BitVec 3), pointsFrom 0#3 tribits = receivedPoints tx →
        ∀ i, i < 48 → slice b (3 * i) 3 = tribits.getD i 0#3

/-- An invalid symbol is never silent: if the received points begin with the path of some tribits and the next point has no
tribit from the state that path reaches, at least one error is counted (42_trellis.md R273). -/
def Obligations.TrellisInvalidSymbolIsCounted : Prop :=
  ∀ (s : State) (tx : BitVec 196) (path : List (BitVec 3)) (bad : BitVec 4) (rest : List (BitVec 4)),
    HoldsOperand s tx → receivedPoints tx = pointsFrom 0#3 path ++ bad :: rest →
    (∀ t, trellisPoint (path.getLastD 0#3) t ≠ bad) →
      ∃ t, exec (.trl34Dec 0#8 196#16) s = .next t ∧ 1 ≤ t.resErr.toNat ∧ t.resUnc = false

/-! ### Reed-Solomon -/

/-- GF_EXP lists the powers of α in order, from 1, by the recurrence of R292, and GF_LOG is its inverse on the non-zero bytes
(43_reed_solomon.md R292). -/
def Obligations.GfTablesArePowersOfAlpha : Prop :=
  gfExp 0 = 0x01#8 ∧ (∀ i, i < 254 → gfExp (i + 1) = timesZ (gfExp i)) ∧
  ∀ v : Byte, v ≠ 0#8 → gfLog v < 255 ∧ gfExp (gfLog v) = v ∧ ∀ i, i < 255 → gfExp i = v → i = gfLog v

/-- `gmul` by the tables is the multiplication of GF(256), for every pair of bytes, and `gdiv` undoes it for every non-zero
divisor (43_reed_solomon.md R290, R293). -/
def Obligations.TableArithmeticIsTheField : Prop :=
  (∀ a b : Byte, gmul a b = gfTimes a b) ∧ ∀ a b : Byte, b ≠ 0#8 → gfTimes (gdiv a b) b = a

/-- RS129.ENC puts out the nine data bytes followed by three check bytes that make a codeword: c(α) = c(α²) = c(α³) = 0
(43_reed_solomon.md R294, R295, R296). -/
def Obligations.RsEncodeMakesACodeword : Prop :=
  ∀ (s : State) (data : BitVec 72), HoldsOperand s data →
    ∃ checks : BitVec 24, Completes (exec (.rs129Enc 0#8 72#16) s) s (data ++ checks) 0 0 false ∧
      IsRsCodeword (data ++ checks)

/-- RS129.SYND puts out c(α), c(α²), c(α³), and RS129.CHECK one bit, 1 exactly for a codeword (43_reed_solomon.md R297, R298,
R306, R307). -/
def Obligations.RsSyndromeAndCheck : Prop :=
  ∀ (s : State) (b : BitVec 96), HoldsOperand s b →
    Completes (exec (.rs129Synd 0#8 96#16) s) s (rootValue b 1 ++ rootValue b 2 ++ rootValue b 3) 0 0 false ∧
    ∃ ok : BitVec 1, Completes (exec (.rs129Check 0#8 96#16) s) s ok 0 0 false ∧ (ok = 1#1 ↔ IsRsCodeword b)

/-- RS129.CORR applies the syndrome it is given, whatever the word: the zero syndrome changes nothing; the syndrome of one byte
error, value y at byte 11−p, puts y there and counts its bits; any other leaves the word (when the payload is as decided) and
is uncorrectable (43_reed_solomon.md R299, R300, R301, R302). -/
def Obligations.RsCorrectAppliesTheGivenSyndrome : Prop :=
  ∀ (s : State) (b : BitVec 96) (s₁ s₂ s₃ : Byte), HoldsOperand s (b ++ s₁ ++ s₂ ++ s₃) →
    (s₁ = 0#8 → s₂ = 0#8 → s₃ = 0#8 → Completes (exec (.rs129Corr 0#8 120#16) s) s b 96 0 false) ∧
    (∀ (p : Nat) (y : Byte), p ≤ 11 → y ≠ 0#8 → s₁ = gfTimes y (alphaRef p) → s₂ = gfTimes y (alphaRef (2 * p)) →
      s₃ = gfTimes y (alphaRef (3 * p)) →
        Completes (exec (.rs129Corr 0#8 120#16) s) s (b ^^^ byteError (11 - p) y) 96 (weight y) false) ∧
    ((∀ (p : Nat) (y : Byte), p ≤ 11 →
        ¬ (s₁ = gfTimes y (alphaRef p) ∧ s₂ = gfTimes y (alphaRef (2 * p)) ∧ s₃ = gfTimes y (alphaRef (3 * p)))) →
      CompletesUncorrectable (exec (.rs129Corr 0#8 120#16) s) s b 96 0)

/-- RS129.SYND then RS129.CORR corrects every single-byte error of every codeword, counting the wrong bits (43_reed_solomon.md
R304; 30_encoding.md R80). -/
def Obligations.RsCorrectsEverySingleByteError : Prop :=
  ∀ (s : State) (c : BitVec 96) (i : Nat) (y : Byte), IsRsCodeword c → i < 12 →
    HoldsOperand s (c ^^^ byteError i y) →
    ∃ syn : BitVec 24, Completes (exec (.rs129Synd 0#8 96#16) s) s syn 0 0 false ∧
      ∀ s' : State, HoldsOperand s' ((c ^^^ byteError i y) ++ syn) →
        Completes (exec (.rs129Corr 0#8 120#16) s') s' c 96 (weight y) false

/-- RS129.SYND then RS129.CORR reports every two-byte error of every codeword as uncorrectable and leaves the word
(43_reed_solomon.md R304). -/
def Obligations.RsDetectsEveryTwoByteError : Prop :=
  ∀ (s : State) (c : BitVec 96) (i j : Nat) (y z : Byte), IsRsCodeword c → i < j → j < 12 → y ≠ 0#8 → z ≠ 0#8 →
    HoldsOperand s (c ^^^ byteError i y ^^^ byteError j z) →
    ∃ syn : BitVec 24, Completes (exec (.rs129Synd 0#8 96#16) s) s syn 0 0 false ∧
      ∀ s' : State, HoldsOperand s' ((c ^^^ byteError i y ^^^ byteError j z) ++ syn) →
        CompletesUncorrectable (exec (.rs129Corr 0#8 120#16) s') s' (c ^^^ byteError i y ^^^ byteError j z) 96 0
end

