-- ==== Sys2Proof/Laws/Bits.lean ====
section
/-! SUPPORT. The laws of bit vectors by index: one lemma per operation of Sys2Proof/Machine/Bits.lean, which later proofs cite
instead of unfolding it. -/

namespace Sys2Proof.Machine

@[simp] theorem getMsbD_ofBits (n : Nat) (f : Nat → Bool) (i : Nat) :
    (ofBits n f).getMsbD i = (decide (i < n) && f i) := by
  induction n with
  | zero => simp [ofBits]
  | succ n ih =>
    simp only [ofBits, BitVec.getMsbD_concat, ih]
    rcases Nat.lt_trichotomy i n with h | h | h
    · simp [h, Nat.lt_succ_of_lt h]
    · simp [h]
    · have h' : ¬ i = n := by omega
      simp [h', Nat.not_lt.mpr (Nat.le_of_lt h), Nat.not_lt.mpr (Nat.succ_le_of_lt h)]

theorem eq_of_bits {n : Nat} {a b : BitVec n} (h : ∀ i, i < n → a.getMsbD i = b.getMsbD i) : a = b :=
  BitVec.eq_of_getMsbD_eq fun i hi => h i hi

theorem ofBits_congr {n : Nat} {f g : Nat → Bool} (h : ∀ i, i < n → f i = g i) : ofBits n f = ofBits n g :=
  eq_of_bits fun i hi => by simp [hi, h i hi]

@[simp] theorem ofBits_getMsbD {n : Nat} (b : BitVec n) : ofBits n (fun i => b.getMsbD i) = b :=
  eq_of_bits fun i hi => by simp [hi]

@[simp] theorem getMsbD_slice {n : Nat} (b : BitVec n) (first len i : Nat) :
    (slice b first len).getMsbD i = (decide (i < len) && b.getMsbD (first + i)) := by
  simp [slice]

@[simp] theorem slice_zero_full {n : Nat} (b : BitVec n) : slice b 0 n = b :=
  eq_of_bits fun i hi => by simp [hi]

theorem slice_xor {n : Nat} (a b : BitVec n) (first len : Nat) :
    slice (a ^^^ b) first len = slice a first len ^^^ slice b first len :=
  eq_of_bits fun i hi => by simp [hi]

@[simp] theorem slice_append_left {k r : Nat} (d : BitVec k) (p : BitVec r) : slice (d ++ p) 0 k = d :=
  eq_of_bits fun i hi => by simp [hi, BitVec.getMsbD_append]

@[simp] theorem slice_append_right {k r : Nat} (d : BitVec k) (p : BitVec r) : slice (d ++ p) k r = p :=
  eq_of_bits fun i hi => by simp [hi, BitVec.getMsbD_append]

@[simp] theorem getMsbD_setSlice {n len : Nat} (b : BitVec n) (first : Nat) (v : BitVec len) (p : Nat) :
    (setSlice b first v).getMsbD p =
      (decide (p < n) && if first ≤ p ∧ p < first + len then v.getMsbD (p - first) else b.getMsbD p) := by
  simp [setSlice]

/-- Reading back the slice just written. -/
theorem slice_setSlice {n len : Nat} (b : BitVec n) (first : Nat) (v : BitVec len) (h : first + len ≤ n) :
    slice (setSlice b first v) first len = v :=
  eq_of_bits fun i hi => by
    have : first + i < n := by omega
    simp [hi, this]

/-- Writing one slice leaves every slice apart from it alone. -/
theorem slice_setSlice_disjoint {n len : Nat} (b : BitVec n) (first : Nat) (v : BitVec len) (first' len' : Nat)
    (h : first' + len' ≤ first ∨ first + len ≤ first') :
    slice (setSlice b first v) first' len' = slice b first' len' :=
  eq_of_bits fun i hi => by
    have hout : ¬(first ≤ first' + i ∧ first' + i < first + len) := by omega
    by_cases hn : first' + i < n
    · simp [hi, hn, hout]
    · simp [hi, BitVec.getMsbD_of_ge _ _ (Nat.le_of_not_lt hn)]

@[simp] theorem getMsbD_gather {n : Nat} (idx : List Nat) (v : BitVec n) (j : Nat) :
    (gather idx v).getMsbD j = (decide (j < n) && v.getMsbD (idx.getD j n)) := by
  simp [gather]

@[simp] theorem getMsbD_scatter {n : Nat} (idx : List Nat) (v : BitVec n) (p : Nat) :
    (scatter idx v).getMsbD p = (decide (p < n) && v.getMsbD (idx.idxOf p)) := by
  simp [scatter]

/-- Through a table of `n` distinct indices below `n`, reading undoes writing. -/
theorem gather_scatter {n : Nat} (idx : List Nat) (v : BitVec n) (hlen : idx.length = n) (hnd : idx.Nodup)
    (hlt : ∀ i ∈ idx, i < n) : gather idx (scatter idx v) = v :=
  eq_of_bits fun j hj => by
    have hj' : j < idx.length := by omega
    have hget : idx.getD j n = idx[j] := by simp [List.getD, hj']
    have hmem : idx[j] < n := hlt _ (List.getElem_mem hj')
    simp [hj, hj', hmem, List.Nodup.idxOf_getElem hnd j hj']

@[simp] theorem xorBits_nil {n : Nat} (d : BitVec n) : xorBits d [] = false := rfl

@[simp] theorem xorBits_cons {n : Nat} (d : BitVec n) (i : Nat) (is : List Nat) :
    xorBits d (i :: is) = (d.getMsbD i ^^ xorBits d is) := rfl

@[simp] theorem xorBits_zero {n : Nat} (is : List Nat) : xorBits (0#n) is = false := by
  induction is with
  | nil => rfl
  | cons i is ih => simp [ih]

/-- `⊕` of listed bits is linear. -/
theorem xorBits_xor {n : Nat} (a b : BitVec n) (is : List Nat) :
    xorBits (a ^^^ b) is = (xorBits a is ^^ xorBits b is) := by
  induction is with
  | nil => rfl
  | cons i is ih =>
    simp only [xorBits_cons, ih, BitVec.getMsbD_xor]
    cases a.getMsbD i <;> cases b.getMsbD i <;> simp

theorem weight_le {n : Nat} (b : BitVec n) : weight b ≤ n :=
  Nat.le_trans List.countP_le_length (by simp)

@[simp] theorem weight_zero (n : Nat) : weight (0#n) = 0 := by simp [weight]

/-- Only the zero vector has weight 0. -/
theorem weight_eq_zero {n : Nat} {b : BitVec n} : weight b = 0 ↔ b = 0#n := by
  constructor
  · intro h
    refine eq_of_bits fun i hi => ?_
    have := List.countP_eq_zero.mp h i (List.mem_range.mpr hi)
    simpa using this
  · rintro rfl
    simp

@[simp] theorem getMsbD_byteAt {n : Nat} (b : BitVec n) (i j : Nat) :
    (byteAt b i).getMsbD j = (decide (j < 8) && b.getMsbD (8 * i + j)) := by
  simp [byteAt]

end Sys2Proof.Machine
end

