-- ==== Sys2Proof/Laws/BlockCode.lean ====
section
/-! SUPPORT. The laws of the block codes: parity and syndrome are linear, a codeword's syndrome is 0, and what the error table
and the decoder can answer. -/

namespace Sys2Proof.Machine

variable {k r : Nat} (C : BlockCode k r)

theorem parity_xor (a b : BitVec k) : parity C (a ^^^ b) = parity C a ^^^ parity C b :=
  eq_of_bits fun j hj => by simp [parity, hj, xorBits_xor]

@[simp] theorem parity_zero : parity C 0#k = 0#r :=
  eq_of_bits fun j hj => by simp [parity]

theorem syndrome_xor (a b : BitVec (k + r)) : syndrome C (a ^^^ b) = syndrome C a ^^^ syndrome C b := by
  simp only [syndrome, slice_xor, parity_xor]
  ac_rfl

/-- A codeword has syndrome 0 (40_block_codes.md R104). -/
@[simp] theorem syndrome_encodeBlock (d : BitVec k) : syndrome C (encodeBlock C d) = 0#r := by
  simp [syndrome, encodeBlock]

/-- Syndrome 0 exactly when the check bits are the parity of the data bits (40_block_codes.md R104). -/
theorem syndrome_eq_zero (c : BitVec (k + r)) : syndrome C c = 0#r ↔ slice c k r = parity C (slice c 0 k) := by
  simp [syndrome, BitVec.xor_eq_zero_iff]

/-- What the error table can answer (40_block_codes.md R105): a listed pattern with the syndrome, or none has it. -/
theorem errorPattern_cases (s : BitVec r) :
    (∃ e ∈ patternsUpTo (k + r) C.radius, syndrome C e = s ∧ errorPattern C s = some e) ∨
    ((∀ e ∈ patternsUpTo (k + r) C.radius, syndrome C e ≠ s) ∧ errorPattern C s = none) := by
  unfold errorPattern
  cases h : (patternsUpTo (k + r) C.radius).find? fun e => syndrome C e == s with
  | none => exact .inr ⟨fun e he => by simpa using List.find?_eq_none.mp h e he, rfl⟩
  | some e => exact .inl ⟨e, List.mem_of_find?_eq_some h, by simpa using List.find?_some h, rfl⟩

/-- What the decoder can answer (40_block_codes.md R106). -/
theorem decodeBlock_cases (c : BitVec (k + r)) :
    (syndrome C c = 0#r ∧ decodeBlock C c = (c, ⟨k + r, 0, false⟩)) ∨
    (syndrome C c ≠ 0#r ∧ ∃ e, errorPattern C (syndrome C c) = some e ∧
      decodeBlock C c = (c ^^^ e, ⟨k + r, weight e, false⟩)) ∨
    (syndrome C c ≠ 0#r ∧ errorPattern C (syndrome C c) = none ∧ decodeBlock C c = (c, ⟨k + r, 0, true⟩)) := by
  unfold decodeBlock
  by_cases h : syndrome C c = 0#r
  · simp [h]
  · cases he : errorPattern C (syndrome C c) <;> simp [h]

/-- A codeword decodes to itself with nothing corrected. -/
theorem decodeBlock_of_codeword {c : BitVec (k + r)} (h : syndrome C c = 0#r) :
    decodeBlock C c = (c, ⟨k + r, 0, false⟩) := by
  simp [decodeBlock, h]

end Sys2Proof.Machine
end

