-- ==== Sys2Proof/Laws/Bptc.lean ====
section
/-! SUPPORT. The laws of the BPTC matrices: cells, rows and columns after each named update, and the index tables as
permutations. -/

namespace Sys2Proof.Machine

@[simp] theorem getMsbD_row196 (m : BitVec 196) (a c : Nat) :
    (row196 m a).getMsbD c = (decide (c < 15) && m.getMsbD (cell196 a c)) := by
  simp [row196, cell196]

@[simp] theorem getMsbD_col196 (m : BitVec 196) (c a : Nat) :
    (col196 m c).getMsbD a = (decide (a < 13) && m.getMsbD (cell196 a c)) := by
  simp [col196]

/-- Cell (a, c) after `row(a') = w`. -/
theorem setRow196_cell (m : BitVec 196) (a' : Nat) (w : BitVec 15) {a c : Nat} (ha : a < 13) (hc : c < 15) :
    (setRow196 m a' w).getMsbD (cell196 a c) = if a = a' then w.getMsbD c else m.getMsbD (cell196 a c) := by
  have hlt : cell196 a c < 196 := by unfold cell196; omega
  simp only [setRow196, getMsbD_setSlice, hlt, decide_true, Bool.true_and]
  by_cases h : a = a'
  · subst h
    have : cell196 a c - cell196 a 0 = c := by unfold cell196; omega
    rw [if_pos (by unfold cell196; omega), this, if_pos rfl]
  · rw [if_neg (by unfold cell196; omega), if_neg h]

/-- Cell (a, c) after `col(c') = w`. -/
theorem setCol196_cell (m : BitVec 196) (c' : Nat) (w : BitVec 13) {a c : Nat} (ha : a < 13) (hc : c < 15) :
    (setCol196 m c' w).getMsbD (cell196 a c) = if c = c' then w.getMsbD a else m.getMsbD (cell196 a c) := by
  have hlt : cell196 a c < 196 := by unfold cell196; omega
  have hmod : (cell196 a c - 1) % 15 = c := by unfold cell196; omega
  have hdiv : (cell196 a c - 1) / 15 = a := by unfold cell196; omega
  have hpos : 1 ≤ cell196 a c := by unfold cell196; omega
  simp [setCol196, hlt, hmod, hdiv, hpos]

@[simp] theorem getMsbD_rowOf {k r n : Nat} (C : BlockCode k r) (m : BitVec n) (a c : Nat) :
    (rowOf C m a).getMsbD c = (decide (c < k + r) && m.getMsbD (a * (k + r) + c)) := by
  simp [rowOf]

@[simp] theorem getMsbD_columnParity {k r n : Nat} (C : BlockCode k r) (dataRows : Nat) (odd : Bool) (m : BitVec n)
    (c : Nat) :
    (columnParity C dataRows odd m).getMsbD c =
      (decide (c < k + r) && (odd ^^ xorBits m ((List.range dataRows).map fun a => a * (k + r) + c))) := by
  simp [columnParity]

@[simp] theorem getMsbD_takeInfo {k r n : Nat} (C : BlockCode k r) (dataRows : Nat) (m : BitVec n) (i : Nat) :
    (takeInfo C dataRows m).getMsbD i = (decide (i < dataRows * k) && m.getMsbD (i / k * (k + r) + i % k)) := by
  simp [takeInfo]

theorem idx196_perm : idx196.length = 196 ∧ idx196.Nodup ∧ ∀ i ∈ idx196, i < 196 := by decide +kernel

theorem cachIdx_perm : cachIdx.length = 68 ∧ cachIdx.Nodup ∧ ∀ i ∈ cachIdx, i < 68 := by decide +kernel

theorem elcIdx_perm : elcIdx.length = 128 ∧ elcIdx.Nodup ∧ ∀ i ∈ elcIdx, i < 128 := by decide +kernel

theorem sbIdx_perm : sbIdx.length = 32 ∧ sbIdx.Nodup ∧ ∀ i ∈ sbIdx, i < 32 := by decide +kernel

theorem infoPos196_distinct : infoPos196.length = 96 ∧ infoPos196.Nodup ∧ ∀ i ∈ infoPos196, 4 ≤ i ∧ i < 132 := by
  decide +kernel

/-- BPTC196: what the receiver's deinterleaver gives back of an interleaved matrix (41_bptc.md R207). -/
theorem deinterleave196 (m : BitVec 196) : gather idx196 (scatter idx196 m) = m :=
  gather_scatter idx196 m idx196_perm.1 idx196_perm.2.1 idx196_perm.2.2

end Sys2Proof.Machine
end

