-- ==== Sys2Proof/Laws/State.lean ====
section
/-! SUPPORT. The fields of State after each named update: one lemma per field, true by `rfl`, so that no later proof unfolds a
record update. -/

namespace Sys2Proof.Machine

section storeDin
variable (mask value : Port)

@[simp] theorem storeDin_cmd (s : State) : (storeDin mask value s).cmd = s.cmd := rfl
@[simp] theorem storeDin_din (s : State) : (storeDin mask value s).din = (s.din &&& ~~~mask) ||| (value &&& mask) := rfl
@[simp] theorem storeDin_dinWritten (s : State) : (storeDin mask value s).dinWritten = s.dinWritten ||| mask := rfl
@[simp] theorem storeDin_dout (s : State) : (storeDin mask value s).dout = s.dout := rfl
@[simp] theorem storeDin_outLen (s : State) : (storeDin mask value s).outLen = s.outLen := rfl
@[simp] theorem storeDin_status (s : State) : (storeDin mask value s).status = s.status := rfl
@[simp] theorem storeDin_resBits (s : State) : (storeDin mask value s).resBits = s.resBits := rfl
@[simp] theorem storeDin_resErr (s : State) : (storeDin mask value s).resErr = s.resErr := rfl
@[simp] theorem storeDin_resUnc (s : State) : (storeDin mask value s).resUnc = s.resUnc := rfl
@[simp] theorem storeDin_slcCnt (s : State) : (storeDin mask value s).slcCnt = s.slcCnt := rfl
@[simp] theorem storeDin_slcBuf (s : State) : (storeDin mask value s).slcBuf = s.slcBuf := rfl
@[simp] theorem storeDin_params (s : State) : (storeDin mask value s).params = s.params := rfl
@[simp] theorem storeDin_inbox (s : State) : (storeDin mask value s).inbox = s.inbox := rfl

end storeDin

section writeResult
variable (dout : Port) (outLen : Nat) (fec : FecResult) (st : Status)

@[simp] theorem writeResult_cmd (s : State) : (writeResult dout outLen fec st s).cmd = s.cmd := rfl
@[simp] theorem writeResult_din (s : State) : (writeResult dout outLen fec st s).din = s.din := rfl
@[simp] theorem writeResult_dinWritten (s : State) : (writeResult dout outLen fec st s).dinWritten = s.dinWritten := rfl
@[simp] theorem writeResult_dout (s : State) : (writeResult dout outLen fec st s).dout = dout := rfl
@[simp] theorem writeResult_outLen (s : State) : (writeResult dout outLen fec st s).outLen = BitVec.ofNat 16 outLen := rfl
@[simp] theorem writeResult_status (s : State) : (writeResult dout outLen fec st s).status = statusCode st := rfl
@[simp] theorem writeResult_resBits (s : State) : (writeResult dout outLen fec st s).resBits = BitVec.ofNat 16 fec.bitsChecked := rfl
@[simp] theorem writeResult_resErr (s : State) : (writeResult dout outLen fec st s).resErr = BitVec.ofNat 16 fec.errorsCorrected := rfl
@[simp] theorem writeResult_resUnc (s : State) : (writeResult dout outLen fec st s).resUnc = fec.uncorrectable := rfl
@[simp] theorem writeResult_slcCnt (s : State) : (writeResult dout outLen fec st s).slcCnt = s.slcCnt := rfl
@[simp] theorem writeResult_slcBuf (s : State) : (writeResult dout outLen fec st s).slcBuf = s.slcBuf := rfl
@[simp] theorem writeResult_params (s : State) : (writeResult dout outLen fec st s).params = s.params := rfl
@[simp] theorem writeResult_inbox (s : State) : (writeResult dout outLen fec st s).inbox = s.inbox := rfl

end writeResult

section result
variable {n : Nat} (out : BitVec n) (fec : FecResult)

@[simp] theorem result_cmd (s : State) : (result out fec s).cmd = s.cmd := rfl
@[simp] theorem result_din (s : State) : (result out fec s).din = s.din := rfl
@[simp] theorem result_dinWritten (s : State) : (result out fec s).dinWritten = s.dinWritten := rfl
@[simp] theorem result_dout (s : State) : (result out fec s).dout = doutOf out := rfl
@[simp] theorem result_outLen (s : State) : (result out fec s).outLen = BitVec.ofNat 16 n := rfl
@[simp] theorem result_status (s : State) : (result out fec s).status = 0x01#8 := rfl
@[simp] theorem result_resBits (s : State) : (result out fec s).resBits = BitVec.ofNat 16 fec.bitsChecked := rfl
@[simp] theorem result_resErr (s : State) : (result out fec s).resErr = BitVec.ofNat 16 fec.errorsCorrected := rfl
@[simp] theorem result_resUnc (s : State) : (result out fec s).resUnc = fec.uncorrectable := rfl
@[simp] theorem result_slcCnt (s : State) : (result out fec s).slcCnt = s.slcCnt := rfl
@[simp] theorem result_slcBuf (s : State) : (result out fec s).slcBuf = s.slcBuf := rfl
@[simp] theorem result_params (s : State) : (result out fec s).params = s.params := rfl
@[simp] theorem result_inbox (s : State) : (result out fec s).inbox = s.inbox := rfl

end result

section resultPlain
variable {n : Nat} (out : BitVec n)

@[simp] theorem resultPlain_cmd (s : State) : (resultPlain out s).cmd = s.cmd := rfl
@[simp] theorem resultPlain_din (s : State) : (resultPlain out s).din = s.din := rfl
@[simp] theorem resultPlain_dinWritten (s : State) : (resultPlain out s).dinWritten = s.dinWritten := rfl
@[simp] theorem resultPlain_dout (s : State) : (resultPlain out s).dout = doutOf out := rfl
@[simp] theorem resultPlain_outLen (s : State) : (resultPlain out s).outLen = BitVec.ofNat 16 n := rfl
@[simp] theorem resultPlain_status (s : State) : (resultPlain out s).status = 0x01#8 := rfl
@[simp] theorem resultPlain_resBits (s : State) : (resultPlain out s).resBits = 0#16 := rfl
@[simp] theorem resultPlain_resErr (s : State) : (resultPlain out s).resErr = 0#16 := rfl
@[simp] theorem resultPlain_resUnc (s : State) : (resultPlain out s).resUnc = false := rfl
@[simp] theorem resultPlain_slcCnt (s : State) : (resultPlain out s).slcCnt = s.slcCnt := rfl
@[simp] theorem resultPlain_slcBuf (s : State) : (resultPlain out s).slcBuf = s.slcBuf := rfl
@[simp] theorem resultPlain_params (s : State) : (resultPlain out s).params = s.params := rfl
@[simp] theorem resultPlain_inbox (s : State) : (resultPlain out s).inbox = s.inbox := rfl

end resultPlain

section raise
variable (st : Status)

@[simp] theorem raise_cmd (s : State) : (raise st s).cmd = s.cmd := rfl
@[simp] theorem raise_din (s : State) : (raise st s).din = s.din := rfl
@[simp] theorem raise_dinWritten (s : State) : (raise st s).dinWritten = s.dinWritten := rfl
@[simp] theorem raise_dout (s : State) : (raise st s).dout = 0#256 := rfl
@[simp] theorem raise_outLen (s : State) : (raise st s).outLen = 0#16 := rfl
@[simp] theorem raise_status (s : State) : (raise st s).status = statusCode st := rfl
@[simp] theorem raise_resBits (s : State) : (raise st s).resBits = 0#16 := rfl
@[simp] theorem raise_resErr (s : State) : (raise st s).resErr = 0#16 := rfl
@[simp] theorem raise_resUnc (s : State) : (raise st s).resUnc = false := rfl
@[simp] theorem raise_slcCnt (s : State) : (raise st s).slcCnt = s.slcCnt := rfl
@[simp] theorem raise_slcBuf (s : State) : (raise st s).slcBuf = s.slcBuf := rfl
@[simp] theorem raise_params (s : State) : (raise st s).params = s.params := rfl
@[simp] theorem raise_inbox (s : State) : (raise st s).inbox = s.inbox := rfl

end raise

@[simp] theorem resetBlock_cmd (s : State) : (resetBlock s).cmd = State.reset.cmd := rfl
@[simp] theorem resetBlock_din (s : State) : (resetBlock s).din = State.reset.din := rfl
@[simp] theorem resetBlock_dinWritten (s : State) : (resetBlock s).dinWritten = State.reset.dinWritten := rfl
@[simp] theorem resetBlock_dout (s : State) : (resetBlock s).dout = State.reset.dout := rfl
@[simp] theorem resetBlock_outLen (s : State) : (resetBlock s).outLen = State.reset.outLen := rfl
@[simp] theorem resetBlock_status (s : State) : (resetBlock s).status = State.reset.status := rfl
@[simp] theorem resetBlock_resBits (s : State) : (resetBlock s).resBits = State.reset.resBits := rfl
@[simp] theorem resetBlock_resErr (s : State) : (resetBlock s).resErr = State.reset.resErr := rfl
@[simp] theorem resetBlock_resUnc (s : State) : (resetBlock s).resUnc = State.reset.resUnc := rfl
@[simp] theorem resetBlock_slcCnt (s : State) : (resetBlock s).slcCnt = State.reset.slcCnt := rfl
@[simp] theorem resetBlock_slcBuf (s : State) : (resetBlock s).slcBuf = State.reset.slcBuf := rfl
@[simp] theorem resetBlock_params (s : State) : (resetBlock s).params = s.params := rfl
@[simp] theorem resetBlock_inbox (s : State) : (resetBlock s).inbox = s.inbox := rfl

end Sys2Proof.Machine
end

