-- ==== Sys2Proof/Laws/Ops.lean ====
section
/-! SUPPORT. What each shared operation can do, said once: later proofs cite these and do not unfold the operation. -/

namespace Sys2Proof.Machine

@[simp] theorem getMsbD_doutOf {n : Nat} (out : BitVec n) (i : Nat) :
    (doutOf out).getMsbD i = (decide (i < 256) && out.getMsbD i) := by
  simp [doutOf]

/-- A decode's result is its decoded value, unless the outcome is uncorrectable and the payload is left open. -/
theorem resultDecoded_cases {m n : Nat} (received : BitVec m) (decoded : BitVec n × FecResult) (s : State) :
    ((decoded.2.uncorrectable = false ∨ s.params.bestEffort = .asDecided) ∧
      resultDecoded received decoded s = result decoded.1 decoded.2 s) ∨
    (decoded.2.uncorrectable = true ∧ s.params.bestEffort = .anyValue ∧
      ∃ out : BitVec n, resultDecoded received decoded s = result out decoded.2 s) := by
  unfold resultDecoded
  split
  · next hu hb => exact .inr ⟨hu, hb, _, rfl⟩
  · next h =>
    refine .inl ⟨?_, rfl⟩
    cases hu : decoded.2.uncorrectable
    · exact .inl rfl
    · cases hb : s.params.bestEffort
      · exact .inr rfl
      · exact absurd hb (h hu)

/-- Whatever the payload, a decode's result is `result` of some vector of the right width. -/
theorem resultDecoded_is_result {m n : Nat} (received : BitVec m) (decoded : BitVec n × FecResult) (s : State) :
    ∃ out : BitVec n, resultDecoded received decoded s = result out decoded.2 s := by
  rcases resultDecoded_cases received decoded s with ⟨-, h⟩ | ⟨-, -, out, h⟩
  · exact ⟨_, h⟩
  · exact ⟨out, h⟩

@[simp] theorem resultDecoded_cmd {m n : Nat} (received : BitVec m) (decoded : BitVec n × FecResult) (s : State) :
    (resultDecoded received decoded s).cmd = s.cmd := by
  obtain ⟨out, h⟩ := resultDecoded_is_result received decoded s
  simp [h]

@[simp] theorem resultDecoded_din {m n : Nat} (received : BitVec m) (decoded : BitVec n × FecResult) (s : State) :
    (resultDecoded received decoded s).din = s.din := by
  obtain ⟨out, h⟩ := resultDecoded_is_result received decoded s
  simp [h]

@[simp] theorem resultDecoded_dinWritten {m n : Nat} (received : BitVec m) (decoded : BitVec n × FecResult) (s : State) :
    (resultDecoded received decoded s).dinWritten = s.dinWritten := by
  obtain ⟨out, h⟩ := resultDecoded_is_result received decoded s
  simp [h]

@[simp] theorem resultDecoded_slcCnt {m n : Nat} (received : BitVec m) (decoded : BitVec n × FecResult) (s : State) :
    (resultDecoded received decoded s).slcCnt = s.slcCnt := by
  obtain ⟨out, h⟩ := resultDecoded_is_result received decoded s
  simp [h]

@[simp] theorem resultDecoded_slcBuf {m n : Nat} (received : BitVec m) (decoded : BitVec n × FecResult) (s : State) :
    (resultDecoded received decoded s).slcBuf = s.slcBuf := by
  obtain ⟨out, h⟩ := resultDecoded_is_result received decoded s
  simp [h]

@[simp] theorem resultDecoded_params {m n : Nat} (received : BitVec m) (decoded : BitVec n × FecResult) (s : State) :
    (resultDecoded received decoded s).params = s.params := by
  obtain ⟨out, h⟩ := resultDecoded_is_result received decoded s
  simp [h]

@[simp] theorem resultDecoded_inbox {m n : Nat} (received : BitVec m) (decoded : BitVec n × FecResult) (s : State) :
    (resultDecoded received decoded s).inbox = s.inbox := by
  obtain ⟨out, h⟩ := resultDecoded_is_result received decoded s
  simp [h]

@[simp] theorem resultDecoded_outLen {m n : Nat} (received : BitVec m) (decoded : BitVec n × FecResult) (s : State) :
    (resultDecoded received decoded s).outLen = BitVec.ofNat 16 n := by
  obtain ⟨out, h⟩ := resultDecoded_is_result received decoded s
  simp [h]

@[simp] theorem resultDecoded_status {m n : Nat} (received : BitVec m) (decoded : BitVec n × FecResult) (s : State) :
    (resultDecoded received decoded s).status = 0x01#8 := by
  obtain ⟨out, h⟩ := resultDecoded_is_result received decoded s
  simp [h]

@[simp] theorem resultDecoded_resBits {m n : Nat} (received : BitVec m) (decoded : BitVec n × FecResult) (s : State) :
    (resultDecoded received decoded s).resBits = BitVec.ofNat 16 decoded.2.bitsChecked := by
  obtain ⟨out, h⟩ := resultDecoded_is_result received decoded s
  simp [h]

@[simp] theorem resultDecoded_resErr {m n : Nat} (received : BitVec m) (decoded : BitVec n × FecResult) (s : State) :
    (resultDecoded received decoded s).resErr = BitVec.ofNat 16 decoded.2.errorsCorrected := by
  obtain ⟨out, h⟩ := resultDecoded_is_result received decoded s
  simp [h]

@[simp] theorem resultDecoded_resUnc {m n : Nat} (received : BitVec m) (decoded : BitVec n × FecResult) (s : State) :
    (resultDecoded received decoded s).resUnc = decoded.2.uncorrectable := by
  obtain ⟨out, h⟩ := resultDecoded_is_result received decoded s
  simp [h]

theorem firstUnwritten_none {s : State} {len : Nat} :
    firstUnwritten s len = none ↔ ∀ i, i < len → s.dinWritten.getMsbD i = true := by
  simp [firstUnwritten, List.find?_eq_none]

/-- The index `firstUnwritten` gives is unwritten, and every bit before it is written. -/
theorem firstUnwritten_some {s : State} {len j : Nat} :
    firstUnwritten s len = some j ↔
      j < len ∧ s.dinWritten.getMsbD j = false ∧ ∀ i, i < j → s.dinWritten.getMsbD i = true := by
  unfold firstUnwritten
  rw [List.find?_range_eq_some]
  simp
  tauto

/-- Check 4 passes exactly when unwritten bits are read as held or the operand is written. -/
theorem missingInput_none {s : State} {len : Nat} :
    missingInput s len = none ↔
      s.params.unwrittenInput = .held ∨ ∀ i, i < len → s.dinWritten.getMsbD i = true := by
  unfold missingInput
  cases h : s.params.unwrittenInput <;> simp [firstUnwritten_none]

/-- Check 4 fails at `j` exactly when unwritten bits stop the command and `j` is the first one of the operand. -/
theorem missingInput_some {s : State} {len j : Nat} :
    missingInput s len = some j ↔ s.params.unwrittenInput = .stops ∧
      j < len ∧ s.dinWritten.getMsbD j = false ∧ ∀ i, i < j → s.dinWritten.getMsbD i = true := by
  unfold missingInput
  cases h : s.params.unwrittenInput <;> simp [firstUnwritten_some]

/-- A host read returns the bit a DIN register holds, wherever a command may read it. -/
theorem dinBit_held {s : State} {i : Nat} (h : s.dinWritten.getMsbD i = true ∨ s.params.unwrittenInput = .held) :
    dinBit s i = s.din.getMsbD i := by
  rcases h with h | h <;> simp [dinBit, h]

/-- Everything `command` can do (60_exceptions.md R336): one of two error statuses, the fault, or the command's rule. -/
theorem command_cases (oddAllowed : Bool) (required : Nat) (flg : BitVec 8) (len : BitVec 16)
    (body : BitVec required → State → State) (s : State) :
    (flagsReserved oddAllowed flg = true ∧
      command oddAllowed required flg len body s = .next (raise .reservedFlags s)) ∨
    (flagsReserved oddAllowed flg = false ∧ lengthWrong required len = true ∧
      command oddAllowed required flg len body s = .next (raise .lengthMismatch s)) ∨
    (flagsReserved oddAllowed flg = false ∧ lengthWrong required len = false ∧
      ∃ j, missingInput s required = some j ∧
        command oddAllowed required flg len body s = .fault (.unwrittenInput j s)) ∨
    (flagsReserved oddAllowed flg = false ∧ lengthWrong required len = false ∧
      missingInput s required = none ∧
        command oddAllowed required flg len body s = .next (body (operand s required) s)) := by
  unfold command
  cases hf : flagsReserved oddAllowed flg
  · cases hl : lengthWrong required len
    · cases hu : missingInput s required
      · simp
      · simp
    · simp
  · simp

/-- What a pass loop does: with the limit spent nothing more, else one pass and, if it fixed something, the rest. -/
theorem repeatPasses_succ {n : Nat} (pass : BitVec n → BitVec n × Bool) (limit : Nat) (m : BitVec n) :
    repeatPasses pass (limit + 1) m =
      if (pass m).2 = true
      then ((repeatPasses pass limit (pass m).1).1, (repeatPasses pass limit (pass m).1).2 + 1)
      else ((pass m).1, 1) := by
  rw [repeatPasses]
  split <;> simp_all

/-- A pass that fixes nothing and changes nothing ends the loop at once. -/
theorem repeatPasses_of_stable {n : Nat} (pass : BitVec n → BitVec n × Bool) (limit : Nat) (m : BitVec n)
    (h : pass m = (m, false)) : (repeatPasses pass limit m).1 = m := by
  cases limit with
  | zero => rfl
  | succ limit => simp [repeatPasses_succ, h]

/-- Everything a host write to CMD can do. -/
theorem performWord_cases (w : Word) (s : State) :
    (∃ i, decode w = .ok i ∧ performWord w s = exec i { s with cmd := w }) ∨
    (∃ opc, decode w = .error (.illegalOpcode opc) ∧
      performWord w s = .next (raise .illegalOpcode { s with cmd := w })) := by
  unfold performWord
  cases h : decode w with
  | ok i => exact .inl ⟨i, rfl, rfl⟩
  | error e =>
    cases e with
    | illegalOpcode opc => exact .inr ⟨opc, rfl, rfl⟩

/-- Everything one access can do. -/
theorem performAccess_cases (a : HostAccess) (s : State) :
    (∃ w, a = .writeCmd w ∧ performAccess a s = performWord w s) ∨
    (∃ mask value, a = .writeDin mask value ∧ performAccess a s = .next (storeDin mask value s)) ∨
    (((∃ r v, a = .writeResult r v) ∨ ∃ r, a = .read r) ∧ performAccess a s = .next s) ∨
    (a = .reset ∧ performAccess a s = .next (resetBlock s)) := by
  cases a <;> simp [performAccess]

/-- Everything a step can do. -/
theorem step_cases (s : State) :
    (s.inbox = [] ∧ step s = .next s) ∨
    (∃ a rest, s.inbox = a :: rest ∧ step s = performAccess a { s with inbox := rest }) := by
  unfold step serveHost
  cases h : s.inbox with
  | nil => exact .inl ⟨rfl, rfl⟩
  | cons a rest => exact .inr ⟨a, rest, rfl, rfl⟩

end Sys2Proof.Machine
end

