-- ==== Sys2Proof/Laws/Exec.lean ====
section
/-! SUPPORT. Every meaning is `command` around the command's own rule: one lemma for all commands. -/

namespace Sys2Proof.Machine

/-- The rule each command performs once the checks of 60_exceptions.md R336 have passed. -/
def ruleOf : (i : Instr) → BitVec i.requiredLen → State → State
  | .ham743Par _ _ => fun d => resultPlain (parity h743 d)
  | .ham743Enc _ _ => fun d => resultPlain (encodeBlock h743 d)
  | .ham743Dec _ _ => fun c => resultDecoded c (decodeBlock h743 c)
  | .ham1393Par _ _ => fun d => resultPlain (parity h1393 d)
  | .ham1393Enc _ _ => fun d => resultPlain (encodeBlock h1393 d)
  | .ham1393Dec _ _ => fun c => resultDecoded c (decodeBlock h1393 c)
  | .ham15113Par _ _ => fun d => resultPlain (parity h15113 d)
  | .ham15113Enc _ _ => fun d => resultPlain (encodeBlock h15113 d)
  | .ham15113Dec _ _ => fun c => resultDecoded c (decodeBlock h15113 c)
  | .ham16114Par _ _ => fun d => resultPlain (parity h16114 d)
  | .ham16114Enc _ _ => fun d => resultPlain (encodeBlock h16114 d)
  | .ham16114Dec _ _ => fun c => resultDecoded c (decodeBlock h16114 c)
  | .ham17123Par _ _ => fun d => resultPlain (parity h17123 d)
  | .ham17123Enc _ _ => fun d => resultPlain (encodeBlock h17123 d)
  | .ham17123Dec _ _ => fun c => resultDecoded c (decodeBlock h17123 c)
  | .gol2087Par _ _ => fun d => resultPlain (parity g2087 d)
  | .gol2087Enc _ _ => fun d => resultPlain (encodeBlock g2087 d)
  | .gol2087Dec _ _ => fun c => resultDecoded c (decodeBlock g2087 c)
  | .gol23127Par _ _ => fun d => resultPlain (parity g23127 d)
  | .gol23127Enc _ _ => fun d => resultPlain (encodeBlock g23127 d)
  | .gol23127Dec _ _ => fun c => resultDecoded c (decodeBlock g23127 c)
  | .gol24128Par _ _ => fun d => resultPlain (parity g24128 d)
  | .gol24128Enc _ _ => fun d => resultPlain (encodeBlock g24128 d)
  | .gol24128Dec _ _ => fun c => resultDecoded c (decodeBlock g24128 c)
  | .qr1676Par _ _ => fun d => resultPlain (parity qr1676 d)
  | .qr1676Enc _ _ => fun d => resultPlain (encodeBlock qr1676 d)
  | .qr1676Dec _ _ => fun c => resultDecoded c (decodeBlock qr1676 c)
  | .bptc196Enc _ _ => fun info => resultPlain (encode196 info)
  | .bptc196Dec _ _ => fun tx => resultDecoded tx (decode196 tx)
  | .cachEnc _ _ => fun info => resultPlain (encodeCach info)
  | .cachDec _ _ => fun tx s => resultDecoded tx (decodeCach s.params.rowPolicy tx) s
  | .elcEnc _ _ => fun info => resultPlain (encodeElc info)
  | .elcDec _ _ => fun tx s => resultDecoded tx (decodeElc s.params.rowPolicy tx) s
  | .sbEnc flg _ => fun info => resultPlain (encodeSb (flg.getLsbD 0) info)
  | .sbDec flg _ => fun tx s => resultDecoded tx (decodeSb s.params.rowPolicy (flg.getLsbD 0) tx) s
  | .trl34Enc _ _ => fun b => resultPlain (encodeTrellis b)
  | .trl34Dec _ _ => fun tx => resultDecoded tx (decodeTrellis tx)
  | .rs129Enc _ _ => fun data => resultPlain (encodeRs data)
  | .rs129Synd _ _ => fun b => resultPlain (rsSyndromes b)
  | .rs129Check _ _ => fun b => resultPlain (BitVec.ofBool (rsPasses b))
  | .rs129Corr _ _ => fun x => resultDecoded x (correctRs (slice x 0 96) (byteAt x 12) (byteAt x 13) (byteAt x 14))
  | .slcReset _ _ => fun _ s => resultPlain 0#0 { s with slcBuf := 0#68, slcCnt := 0#3 }
  | .slcPush _ _ => fun f => pushFragment f
  | .sbEncRc => fun info => resultPlain (encodeSb true info)
  | .sbDecRc => fun tx s => resultDecoded tx (decodeSb s.params.rowPolicy true tx) s

theorem exec_eq_command (i : Instr) (s : State) :
    exec i s = command i.hasOdd i.requiredLen i.flags i.length (ruleOf i) s := by
  cases i <;> rfl

end Sys2Proof.Machine
end

