-- ==== Sys2Proof/Laws/PerInstr.lean ====
section
/-! SUPPORT. Statements about every command, one lemma per constructor: the fields of the word a command is encoded as. -/

namespace Sys2Proof.Laws.WordFields

/-- The three fields of the encoded word are the command's own (30_encoding.md R70, R79). -/
def Statement (i : Instr) : Prop :=
  wordOpc (encode i) = i.opcode ∧ wordFlags (encode i) = i.flags ∧ wordLen (encode i) = i.length

theorem of_encode (i : Instr) : Statement i := by
  unfold Statement wordOpc wordFlags wordLen encode
  refine ⟨?_, ?_, ?_⟩ <;> refine BitVec.eq_of_getLsbD_eq fun j hj => ?_
  · have h1 : 24 + j < 32 := by omega
    simp [hj, h1, BitVec.getLsbD_of_ge i.flags (24 + j - 16) (by omega),
      BitVec.getLsbD_of_ge i.length (24 + j) (by omega)]
  · have h1 : 16 + j < 32 := by omega
    have h2 : 16 + j < 24 := by omega
    simp [hj, h1, h2]
  · have h1 : j < 32 := by omega
    have h2 : j < 24 := by omega
    simp [hj, h1, h2]

theorem ham743Par (flg : BitVec 8) (len : BitVec 16) : Statement (.ham743Par flg len) := of_encode _
theorem ham743Enc (flg : BitVec 8) (len : BitVec 16) : Statement (.ham743Enc flg len) := of_encode _
theorem ham743Dec (flg : BitVec 8) (len : BitVec 16) : Statement (.ham743Dec flg len) := of_encode _
theorem ham1393Par (flg : BitVec 8) (len : BitVec 16) : Statement (.ham1393Par flg len) := of_encode _
theorem ham1393Enc (flg : BitVec 8) (len : BitVec 16) : Statement (.ham1393Enc flg len) := of_encode _
theorem ham1393Dec (flg : BitVec 8) (len : BitVec 16) : Statement (.ham1393Dec flg len) := of_encode _
theorem ham15113Par (flg : BitVec 8) (len : BitVec 16) : Statement (.ham15113Par flg len) := of_encode _
theorem ham15113Enc (flg : BitVec 8) (len : BitVec 16) : Statement (.ham15113Enc flg len) := of_encode _
theorem ham15113Dec (flg : BitVec 8) (len : BitVec 16) : Statement (.ham15113Dec flg len) := of_encode _
theorem ham16114Par (flg : BitVec 8) (len : BitVec 16) : Statement (.ham16114Par flg len) := of_encode _
theorem ham16114Enc (flg : BitVec 8) (len : BitVec 16) : Statement (.ham16114Enc flg len) := of_encode _
theorem ham16114Dec (flg : BitVec 8) (len : BitVec 16) : Statement (.ham16114Dec flg len) := of_encode _
theorem ham17123Par (flg : BitVec 8) (len : BitVec 16) : Statement (.ham17123Par flg len) := of_encode _
theorem ham17123Enc (flg : BitVec 8) (len : BitVec 16) : Statement (.ham17123Enc flg len) := of_encode _
theorem ham17123Dec (flg : BitVec 8) (len : BitVec 16) : Statement (.ham17123Dec flg len) := of_encode _
theorem gol2087Par (flg : BitVec 8) (len : BitVec 16) : Statement (.gol2087Par flg len) := of_encode _
theorem gol2087Enc (flg : BitVec 8) (len : BitVec 16) : Statement (.gol2087Enc flg len) := of_encode _
theorem gol2087Dec (flg : BitVec 8) (len : BitVec 16) : Statement (.gol2087Dec flg len) := of_encode _
theorem gol23127Par (flg : BitVec 8) (len : BitVec 16) : Statement (.gol23127Par flg len) := of_encode _
theorem gol23127Enc (flg : BitVec 8) (len : BitVec 16) : Statement (.gol23127Enc flg len) := of_encode _
theorem gol23127Dec (flg : BitVec 8) (len : BitVec 16) : Statement (.gol23127Dec flg len) := of_encode _
theorem gol24128Par (flg : BitVec 8) (len : BitVec 16) : Statement (.gol24128Par flg len) := of_encode _
theorem gol24128Enc (flg : BitVec 8) (len : BitVec 16) : Statement (.gol24128Enc flg len) := of_encode _
theorem gol24128Dec (flg : BitVec 8) (len : BitVec 16) : Statement (.gol24128Dec flg len) := of_encode _
theorem qr1676Par (flg : BitVec 8) (len : BitVec 16) : Statement (.qr1676Par flg len) := of_encode _
theorem qr1676Enc (flg : BitVec 8) (len : BitVec 16) : Statement (.qr1676Enc flg len) := of_encode _
theorem qr1676Dec (flg : BitVec 8) (len : BitVec 16) : Statement (.qr1676Dec flg len) := of_encode _
theorem bptc196Enc (flg : BitVec 8) (len : BitVec 16) : Statement (.bptc196Enc flg len) := of_encode _
theorem bptc196Dec (flg : BitVec 8) (len : BitVec 16) : Statement (.bptc196Dec flg len) := of_encode _
theorem cachEnc (flg : BitVec 8) (len : BitVec 16) : Statement (.cachEnc flg len) := of_encode _
theorem cachDec (flg : BitVec 8) (len : BitVec 16) : Statement (.cachDec flg len) := of_encode _
theorem elcEnc (flg : BitVec 8) (len : BitVec 16) : Statement (.elcEnc flg len) := of_encode _
theorem elcDec (flg : BitVec 8) (len : BitVec 16) : Statement (.elcDec flg len) := of_encode _
theorem sbEnc (flg : BitVec 8) (len : BitVec 16) : Statement (.sbEnc flg len) := of_encode _
theorem sbDec (flg : BitVec 8) (len : BitVec 16) : Statement (.sbDec flg len) := of_encode _
theorem trl34Enc (flg : BitVec 8) (len : BitVec 16) : Statement (.trl34Enc flg len) := of_encode _
theorem trl34Dec (flg : BitVec 8) (len : BitVec 16) : Statement (.trl34Dec flg len) := of_encode _
theorem rs129Enc (flg : BitVec 8) (len : BitVec 16) : Statement (.rs129Enc flg len) := of_encode _
theorem rs129Synd (flg : BitVec 8) (len : BitVec 16) : Statement (.rs129Synd flg len) := of_encode _
theorem rs129Check (flg : BitVec 8) (len : BitVec 16) : Statement (.rs129Check flg len) := of_encode _
theorem rs129Corr (flg : BitVec 8) (len : BitVec 16) : Statement (.rs129Corr flg len) := of_encode _
theorem slcReset (flg : BitVec 8) (len : BitVec 16) : Statement (.slcReset flg len) := of_encode _
theorem slcPush (flg : BitVec 8) (len : BitVec 16) : Statement (.slcPush flg len) := of_encode _
theorem sbEncRc : Statement .sbEncRc := of_encode _
theorem sbDecRc : Statement .sbDecRc := of_encode _

end Sys2Proof.Laws.WordFields
end

