-- ==== Sys2Proof/Laws/Trellis.lean ====
section
/-! SUPPORT. The laws of the trellis tables and of the two recursions over the symbol sequence. -/

namespace Sys2Proof.Machine

@[simp] theorem dibitOf_dibitBits (d : Dibit) : dibitOf (dibitBits d) = d := by cases d <;> decide

@[simp] theorem dibitBits_dibitOf (b : BitVec 2) : dibitBits (dibitOf b) = b := by
  revert b; decide

@[simp] theorem pointOf_constellation (p : BitVec 4) : pointOf (constellation p) = p := by
  revert p; decide

/-- The inverse table answers the tribit that was encoded (42_trellis.md R269). -/
@[simp] theorem trellisInverse_trellisPoint (s t : BitVec 3) : trellisInverse s (trellisPoint s t) = some t := by
  revert s t; decide

/-- What the inverse table can answer (42_trellis.md R269). -/
theorem trellisInverse_some {s t : BitVec 3} {p : BitVec 4} (h : trellisInverse s p = some t) : trellisPoint s t = p := by
  simpa using List.find?_some h

@[simp] theorem decodePoints_nil (s : BitVec 3) : decodePoints s [] = ([], 0) := rfl

/-- Everything one symbol can do to the decoder (42_trellis.md R271). -/
theorem decodePoints_cons_cases (s : BitVec 3) (p : BitVec 4) (ps : List (BitVec 4)) :
    (∃ t, trellisInverse s p = some t ∧
      decodePoints s (p :: ps) = (t :: (decodePoints t ps).1, (decodePoints t ps).2)) ∨
    (trellisInverse s p = none ∧
      decodePoints s (p :: ps) = (s :: (decodePoints s ps).1, (decodePoints s ps).2 + 1)) := by
  cases h : trellisInverse s p with
  | some t => exact .inl ⟨t, rfl, by simp [decodePoints, h]⟩
  | none => exact .inr ⟨rfl, by simp [decodePoints, h]⟩

theorem decodePoints_length (s : BitVec 3) (ps : List (BitVec 4)) : (decodePoints s ps).1.length = ps.length := by
  induction ps generalizing s with
  | nil => rfl
  | cons p ps ih =>
    rcases decodePoints_cons_cases s p ps with ⟨t, -, h⟩ | ⟨-, h⟩ <;> simp [h, ih]

theorem interleaveRom_perm : interleaveRom.length = 98 ∧ interleaveRom.Nodup ∧ ∀ i ∈ interleaveRom, i < 98 := by
  decide +kernel

end Sys2Proof.Machine
end

