-- ==== Sys2Proof/Tests/Slice0.lean ====
section
/-! SUPPORT. The model's own tests. Every expected value is the spec's: a word written from 30_encoding.md R71, a row of
95_test_vectors.md (named at each test), or an example of the command's rule. The theorems named witness_… show a state and
operands that meet the hypotheses of the statement they name. -/

namespace Sys2Proof.Machine.Tests

-- One theorem at a time: each evaluation in the kernel would otherwise hold a thread of its own.
set_option Elab.async false

/-! ### WellFormed: an ill-formed term for each check -/

/-- FLG.ODD in a command without it; FLG[1] in one with it (60_exceptions.md R333). -/
theorem test_flags_refused : (Instr.ham743Enc 1#8 4#16).flagsLegal = false ∧ (Instr.sbEnc 2#8 11#16).flagsLegal = false := by
  decide

/-- One bit too many, and one too few (60_exceptions.md R335). -/
theorem test_length_refused :
    (Instr.ham743Enc 0#8 5#16).lengthLegal = false ∧ (Instr.slcPush 0#8 16#16).lengthLegal = false := by decide

/-- The words of the pseudo-command rows have one spelling (log 8). -/
theorem test_spelling_refused : (Instr.sbEnc 1#8 11#16).canonical = false ∧ (Instr.sbDec 1#8 32#16).canonical = false := by
  decide

/-- A term that one check refuses is not well formed; legal ones are. -/
theorem test_wellFormed :
    (Instr.ham743Enc 1#8 4#16).wellFormed = false ∧ (Instr.ham743Enc 0#8 5#16).wellFormed = false ∧
    (Instr.sbEnc 1#8 11#16).wellFormed = false ∧ (Instr.ham743Enc 0#8 4#16).wellFormed = true ∧
    Instr.sbEncRc.wellFormed = true ∧ (Instr.sbDec 0#8 32#16).wellFormed = true ∧
    (Instr.slcReset 0#8 0#16).wellFormed = true := by decide

/-! ### Decoding: every constructor from its word (30_encoding.md R70, R71, R80) -/

theorem test_decode_ham743 : decode 0x10000004#32 = .ok (.ham743Par 0#8 4#16) ∧
    decode 0x11000004#32 = .ok (.ham743Enc 0#8 4#16) ∧
    decode 0x12000007#32 = .ok (.ham743Dec 0#8 7#16) := ⟨rfl, rfl, rfl⟩

theorem test_decode_ham1393 : decode 0x20000009#32 = .ok (.ham1393Par 0#8 9#16) ∧
    decode 0x21000009#32 = .ok (.ham1393Enc 0#8 9#16) ∧
    decode 0x2200000D#32 = .ok (.ham1393Dec 0#8 13#16) := ⟨rfl, rfl, rfl⟩

theorem test_decode_ham15113 : decode 0x3000000B#32 = .ok (.ham15113Par 0#8 11#16) ∧
    decode 0x3100000B#32 = .ok (.ham15113Enc 0#8 11#16) ∧
    decode 0x3200000F#32 = .ok (.ham15113Dec 0#8 15#16) := ⟨rfl, rfl, rfl⟩

theorem test_decode_ham16114 : decode 0x4000000B#32 = .ok (.ham16114Par 0#8 11#16) ∧
    decode 0x4100000B#32 = .ok (.ham16114Enc 0#8 11#16) ∧
    decode 0x42000010#32 = .ok (.ham16114Dec 0#8 16#16) := ⟨rfl, rfl, rfl⟩

theorem test_decode_ham17123 : decode 0x5000000C#32 = .ok (.ham17123Par 0#8 12#16) ∧
    decode 0x5100000C#32 = .ok (.ham17123Enc 0#8 12#16) ∧
    decode 0x52000011#32 = .ok (.ham17123Dec 0#8 17#16) := ⟨rfl, rfl, rfl⟩

theorem test_decode_gol2087 : decode 0x60000008#32 = .ok (.gol2087Par 0#8 8#16) ∧
    decode 0x61000008#32 = .ok (.gol2087Enc 0#8 8#16) ∧
    decode 0x62000014#32 = .ok (.gol2087Dec 0#8 20#16) := ⟨rfl, rfl, rfl⟩

theorem test_decode_gol23127 : decode 0x7000000C#32 = .ok (.gol23127Par 0#8 12#16) ∧
    decode 0x7100000C#32 = .ok (.gol23127Enc 0#8 12#16) ∧
    decode 0x72000017#32 = .ok (.gol23127Dec 0#8 23#16) := ⟨rfl, rfl, rfl⟩

theorem test_decode_gol24128 : decode 0x8000000C#32 = .ok (.gol24128Par 0#8 12#16) ∧
    decode 0x8100000C#32 = .ok (.gol24128Enc 0#8 12#16) ∧
    decode 0x82000018#32 = .ok (.gol24128Dec 0#8 24#16) := ⟨rfl, rfl, rfl⟩

theorem test_decode_qr1676 : decode 0x90000007#32 = .ok (.qr1676Par 0#8 7#16) ∧
    decode 0x91000007#32 = .ok (.qr1676Enc 0#8 7#16) ∧
    decode 0x92000010#32 = .ok (.qr1676Dec 0#8 16#16) := ⟨rfl, rfl, rfl⟩

theorem test_decode_bptc196 : decode 0xA0000060#32 = .ok (.bptc196Enc 0#8 96#16) ∧
    decode 0xA10000C4#32 = .ok (.bptc196Dec 0#8 196#16) := ⟨rfl, rfl⟩

theorem test_decode_cach : decode 0xA2000024#32 = .ok (.cachEnc 0#8 36#16) ∧
    decode 0xA3000044#32 = .ok (.cachDec 0#8 68#16) := ⟨rfl, rfl⟩

theorem test_decode_elc : decode 0xA400004D#32 = .ok (.elcEnc 0#8 77#16) ∧
    decode 0xA5000080#32 = .ok (.elcDec 0#8 128#16) := ⟨rfl, rfl⟩

theorem test_decode_sb : decode 0xA600000B#32 = .ok (.sbEnc 0#8 11#16) ∧
    decode 0xA7000020#32 = .ok (.sbDec 0#8 32#16) := ⟨rfl, rfl⟩

theorem test_decode_trl34 : decode 0xB0000090#32 = .ok (.trl34Enc 0#8 144#16) ∧
    decode 0xB10000C4#32 = .ok (.trl34Dec 0#8 196#16) := ⟨rfl, rfl⟩

theorem test_decode_rs129 : decode 0xC0000048#32 = .ok (.rs129Enc 0#8 72#16) ∧
    decode 0xC1000060#32 = .ok (.rs129Synd 0#8 96#16) ∧
    decode 0xC2000060#32 = .ok (.rs129Check 0#8 96#16) ∧
    decode 0xC3000078#32 = .ok (.rs129Corr 0#8 120#16) := ⟨rfl, rfl, rfl, rfl⟩

theorem test_decode_slc : decode 0xD0000000#32 = .ok (.slcReset 0#8 0#16) ∧
    decode 0xD1000011#32 = .ok (.slcPush 0#8 17#16) := ⟨rfl, rfl⟩

theorem test_decode_sb_rc : decode 0xA601000B#32 = .ok .sbEncRc ∧
    decode 0xA7010020#32 = .ok .sbDecRc := ⟨rfl, rfl⟩

/-- The word bit by bit, eight bits OPC, eight FLG, sixteen LEN (30_encoding.md R70). -/
theorem test_decode_bits :
    decode 0b00010001000000000000000000000100#32 = .ok (.ham743Enc 0#8 4#16) ∧
    decode 0b00100000000000000000000000001001#32 = .ok (.ham1393Par 0#8 9#16) ∧
    decode 0b00110010000000000000000000001111#32 = .ok (.ham15113Dec 0#8 15#16) ∧
    decode 0b01000001000000000000000000001011#32 = .ok (.ham16114Enc 0#8 11#16) ∧
    decode 0b01010010000000000000000000010001#32 = .ok (.ham17123Dec 0#8 17#16) ∧
    decode 0b01100000000000000000000000001000#32 = .ok (.gol2087Par 0#8 8#16) ∧
    decode 0b01110010000000000000000000010111#32 = .ok (.gol23127Dec 0#8 23#16) ∧
    decode 0b10000001000000000000000000001100#32 = .ok (.gol24128Enc 0#8 12#16) ∧
    decode 0b10010010000000000000000000010000#32 = .ok (.qr1676Dec 0#8 16#16) ∧
    decode 0b10100001000000000000000011000100#32 = .ok (.bptc196Dec 0#8 196#16) ∧
    decode 0b10100010000000000000000000100100#32 = .ok (.cachEnc 0#8 36#16) ∧
    decode 0b10100101000000000000000010000000#32 = .ok (.elcDec 0#8 128#16) ∧
    decode 0b10100111000000000000000000100000#32 = .ok (.sbDec 0#8 32#16) ∧
    decode 0b10110000000000000000000010010000#32 = .ok (.trl34Enc 0#8 144#16) ∧
    decode 0b11000011000000000000000001111000#32 = .ok (.rs129Corr 0#8 120#16) ∧
    decode 0b11010001000000000000000000010001#32 = .ok (.slcPush 0#8 17#16) ∧
    decode 0b10100110000000010000000000001011#32 = .ok .sbEncRc ∧
    decode 0b10100111000000010000000000100000#32 = .ok .sbDecRc :=
  ⟨rfl, rfl, rfl, rfl, rfl, rfl, rfl, rfl, rfl, rfl, rfl, rfl, rfl, rfl, rfl, rfl, rfl, rfl⟩

/-- A bad FLG or LEN selects the same command (30_encoding.md R76): FLG and LEN are read at their places. -/
theorem test_decode_keeps_fields : decode 0x11A51234#32 = .ok (.ham743Enc 0xA5#8 0x1234#16) ∧
    decode 0xA602000B#32 = .ok (.sbEnc 2#8 11#16) ∧ decode 0xA601000C#32 = .ok (.sbEnc 1#8 12#16) := ⟨rfl, rfl, rfl⟩

/-- Reserved operation codes, at the edges of the listed ones (30_encoding.md R77). -/
theorem test_decode_rejects : decode 0x13000004#32 = .error (.illegalOpcode 0x13#8) ∧
    decode 0x00000000#32 = .error (.illegalOpcode 0#8) ∧ decode 0xA8000000#32 = .error (.illegalOpcode 0xA8#8) ∧
    decode 0xD2000000#32 = .error (.illegalOpcode 0xD2#8) ∧ decode 0xFF000007#32 = .error (.illegalOpcode 0xFF#8) :=
  ⟨rfl, rfl, rfl, rfl, rfl⟩

theorem test_decodeTableWord : decodeTableWord 32 0x10000004 = some (.ham743Par 0#8 4#16) ∧
    decodeTableWord 32 0x13000004 = none := ⟨rfl, rfl⟩

theorem test_encode : encode (.rs129Corr 0#8 120#16) = 0xC3000078#32 ∧ encode .sbDecRc = 0xA7010020#32 := ⟨rfl, rfl⟩

/-! ### One step per test -/

/-- The reset state with DIN[0..n-1] written with `v`. -/
def given {n : Nat} (v : BitVec n) : State := storeDin (dinMask 0 n) (setSlice 0#256 0 v) State.reset

/-- One command word written to CMD in the state `s`. -/
def send (w : Word) (s : State) : Host.Outcome State Fault Refusal := step { s with inbox := [.writeCmd w] }

/-- The outcome is a next state that `p` accepts. -/
def answers (o : Host.Outcome State Fault Refusal) (p : State → Bool) : Bool :=
  match o with
  | .next t => p t
  | .fault _ => false
  | .refused _ => false

/-- The next state holds `out`, all of DOUT, with (b, e, u) and STATUS = OK. -/
def gives {n : Nat} (o : Host.Outcome State Fault Refusal) (out : BitVec n) (b e : Nat) (u : Bool) : Bool :=
  answers o fun t => t.dout == setSlice 0#256 0 out && t.outLen.toNat == n && t.resBits.toNat == b &&
    t.resErr.toNat == e && t.resUnc == u && t.status == 0x01#8

/-- The next state holds the empty result with the status `code`. -/
def empties (o : Host.Outcome State Fault Refusal) (code : BitVec 8) : Bool :=
  answers o fun t => t.dout == 0#256 && t.outLen == 0#16 && t.resBits == 0#16 && t.resErr == 0#16 && !t.resUnc &&
    t.status == code

/-- The outcome is the fault `f`. -/
def faults (o : Host.Outcome State Fault Refusal) (f : Fault) : Bool :=
  match o with
  | .next _ => false
  | .fault f' => f' == f
  | .refused _ => false

theorem eq_of_faults {o : Host.Outcome State Fault Refusal} {f : Fault} (h : faults o f = true) : o = .fault f := by
  cases o <;> simp_all [faults]

/-! 95_test_vectors.md 2.1, HAM743 -/

theorem test_ham743_par : gives (send 0x10000004#32 (given 0b1000#4)) 0b101#3 0 0 false = true := by decide +kernel

theorem test_ham743_enc : gives (send 0x11000004#32 (given 0b1000#4)) 0b1000101#7 0 0 false = true := by decide +kernel

/-- 2 errors at 0..1 -/
theorem test_ham743_dec : gives (send 0x12000007#32 (given 0b0011111#7)) 0b0011101#7 7 1 false = true := by decide +kernel

/-- error in last check bit 6 -/
theorem test_ham743_dec_check_bit : gives (send 0x12000007#32 (given 0b1111110#7)) 0b1111111#7 7 1 false = true := by decide +kernel

/-! 95_test_vectors.md 2.1, HAM1393 -/

theorem test_ham1393_par : gives (send 0x20000009#32 (given 0b100000000#9)) 0b1111#4 0 0 false = true := by decide +kernel

theorem test_ham1393_enc : gives (send 0x21000009#32 (given 0b100000000#9)) 0b1000000001111#13 0 0 false = true := by decide +kernel

/-- 2 errors at 0..1 -/
theorem test_ham1393_dec : gives (send 0x2200000D#32 (given 0b0011111111011#13)) 0b0011111111010#13 13 1 false = true := by decide +kernel

/-- error in last check bit 12 -/
theorem test_ham1393_dec_check_bit : gives (send 0x2200000D#32 (given 0b1111111111010#13)) 0b1111111111011#13 13 1 false = true := by decide +kernel

/-! 95_test_vectors.md 2.1, HAM15113 -/

theorem test_ham15113_par : gives (send 0x3000000B#32 (given 0b10000000000#11)) 0b1001#4 0 0 false = true := by decide +kernel

theorem test_ham15113_enc : gives (send 0x3100000B#32 (given 0b10000000000#11)) 0b100000000001001#15 0 0 false = true := by decide +kernel

/-- 2 errors at 0..1 -/
theorem test_ham15113_dec : gives (send 0x3200000F#32 (given 0b001111111111111#15)) 0b001111111111011#15 15 1 false = true := by decide +kernel

/-- error in last check bit 14 -/
theorem test_ham15113_dec_check_bit : gives (send 0x3200000F#32 (given 0b111111111111110#15)) 0b111111111111111#15 15 1 false = true := by decide +kernel

/-! 95_test_vectors.md 2.1, HAM16114 -/

theorem test_ham16114_par : gives (send 0x4000000B#32 (given 0b10000000000#11)) 0b10011#5 0 0 false = true := by decide +kernel

theorem test_ham16114_enc : gives (send 0x4100000B#32 (given 0b10000000000#11)) 0b1000000000010011#16 0 0 false = true := by decide +kernel

/-- error in data bit 0 -/
theorem test_ham16114_dec : gives (send 0x42000010#32 (given 0b0111111111111111#16)) 0b1111111111111111#16 16 1 false = true := by decide +kernel

/-- 2 errors at 0..1 -/
theorem test_ham16114_dec_uncorrectable : gives (send 0x42000010#32 (given 0b0011111111111111#16)) 0b0011111111111111#16 16 0 true = true := by decide +kernel

/-! 95_test_vectors.md 2.1, HAM17123 -/

theorem test_ham17123_par : gives (send 0x5000000C#32 (given 0b100000000000#12)) 0b11011#5 0 0 false = true := by decide +kernel

theorem test_ham17123_enc : gives (send 0x5100000C#32 (given 0b100000000000#12)) 0b10000000000011011#17 0 0 false = true := by decide +kernel

/-- 2 errors at 0..1 -/
theorem test_ham17123_dec : gives (send 0x52000011#32 (given 0b00111111111110001#17)) 0b00111111111110101#17 17 1 false = true := by decide +kernel

/-- error in last check bit 16 -/
theorem test_ham17123_dec_check_bit : gives (send 0x52000011#32 (given 0b11111111111110000#17)) 0b11111111111110001#17 17 1 false = true := by decide +kernel

/-! 95_test_vectors.md 2.1, GOL2087 -/

theorem test_gol2087_par : gives (send 0x60000008#32 (given 0b10000000#8)) 0b001111011010#12 0 0 false = true := by decide +kernel

theorem test_gol2087_enc : gives (send 0x61000008#32 (given 0b10000000#8)) 0b10000000001111011010#20 0 0 false = true := by decide +kernel

/-- 3 errors at 0..2 -/
theorem test_gol2087_dec : gives (send 0x62000014#32 (given 0b00011111110101101101#20)) 0b11111111110101101101#20 20 3 false = true := by decide +kernel

/-- error in last check bit 19 -/
theorem test_gol2087_dec_check_bit : gives (send 0x62000014#32 (given 0b11111111110101101100#20)) 0b11111111110101101101#20 20 1 false = true := by decide +kernel

/-! 95_test_vectors.md 2.1, GOL23127 -/

theorem test_gol23127_par : gives (send 0x7000000C#32 (given 0b100000000000#12)) 0b11000111010#11 0 0 false = true := by decide +kernel

theorem test_gol23127_enc : gives (send 0x7100000C#32 (given 0b100000000000#12)) 0b10000000000011000111010#23 0 0 false = true := by decide +kernel

/-- 3 errors at 0..2 -/
theorem test_gol23127_dec : gives (send 0x72000017#32 (given 0b00011111111111111111111#23)) 0b11111111111111111111111#23 23 3 false = true := by decide +kernel

/-- error in last check bit 22 -/
theorem test_gol23127_dec_check_bit : gives (send 0x72000017#32 (given 0b11111111111111111111110#23)) 0b11111111111111111111111#23 23 1 false = true := by decide +kernel

/-! 95_test_vectors.md 2.1, GOL24128 -/

theorem test_gol24128_par : gives (send 0x8000000C#32 (given 0b100000000000#12)) 0b110001110101#12 0 0 false = true := by decide +kernel

theorem test_gol24128_enc : gives (send 0x8100000C#32 (given 0b100000000000#12)) 0b100000000000110001110101#24 0 0 false = true := by decide +kernel

/-- 3 errors at 0..2 -/
theorem test_gol24128_dec : gives (send 0x82000018#32 (given 0b000111111111111111111111#24)) 0b111111111111111111111111#24 24 3 false = true := by decide +kernel

/-- error in last check bit 23 -/
theorem test_gol24128_dec_check_bit : gives (send 0x82000018#32 (given 0b111111111111111111111110#24)) 0b111111111111111111111111#24 24 1 false = true := by decide +kernel

/-! 95_test_vectors.md 2.1, QR1676 -/

theorem test_qr1676_par : gives (send 0x90000007#32 (given 0b1000000#7)) 0b001001111#9 0 0 false = true := by decide +kernel

theorem test_qr1676_enc : gives (send 0x91000007#32 (given 0b1000000#7)) 0b1000000001001111#16 0 0 false = true := by decide +kernel

/-- 2 errors at 0..1 -/
theorem test_qr1676_dec : gives (send 0x92000010#32 (given 0b0011111001011011#16)) 0b1111111001011011#16 16 2 false = true := by decide +kernel

/-- 3 errors at 0..2 -/
theorem test_qr1676_dec_uncorrectable : gives (send 0x92000010#32 (given 0b0001111001011011#16)) 0b0001111001011011#16 16 0 true = true := by decide +kernel

/-! 95_test_vectors.md 2.2 to 2.6 -/

theorem test_bptc196_enc : gives (send 0xA0000060#32 (given 0x0123456789ABCDEFFEDCBA98#96)) 0x09876E874DA1370BB8F1AB67EE84CEA4F83F8C5F41DC9A3CD#196 0 0 false = true := by decide +kernel

/-- TX[5] flipped -/
theorem test_bptc196_dec : gives (send 0xA10000C4#32 (given 0x0D876E874DA1370BB8F1AB67EE84CEA4F83F8C5F41DC9A3CD#196)) 0x0123456789ABCDEFFEDCBA98#96 196 1 false = true := by decide +kernel

/-- TX[152], TX[137], TX[123], TX[108] flipped: a square of the matrix -/
theorem test_bptc196_dec_square : gives (send 0xA10000C4#32 (given 0x09876E874DA1370BB8F1AB67EE8CCEB4F87F8CDF41DC9A3CD#196)) 0x01E35D6789ABCDEFFEDCBA98#96 196 2 true = true := by decide +kernel

theorem test_cach_enc : gives (send 0xA2000024#32 (given 0x123456789#36)) 0x063A359535CA66590#68 0 0 false = true := by decide +kernel

/-- TX[0], TX[4] flipped: one row, two errors -/
theorem test_cach_dec : gives (send 0xA3000044#32 (given 0x8E3A359535CA66590#68)) 0xD23456789#36 68 1 true = true := by decide +kernel

/-- `column_gated`: TX[0], TX[1] flipped. -/
theorem test_cach_dec_column_gated : gives (send 0xA3000044#32
    { given 0xC63A359535CA66590#68 with params := ⟨.columnGated, .asDecided, .held⟩ }) 0x923C56789#36 68 0 true = true := by
  decide +kernel

theorem test_elc_enc : gives (send 0xA400004D#32 (given 0x1F2E3D4C5B6A79881726#77)) 0xF3829FB8E85A50C03ACFB1F6E82B2722#128 0 0 false = true := by decide +kernel

/-- TX[0], TX[8] flipped: row 0, two errors -/
theorem test_elc_dec : gives (send 0xA5000080#32 (given 0x73029FB8E85A50C03ACFB1F6E82B2722#128)) 0x072E3D4C5B6A79881726#77 128 0 true = true := by decide +kernel

/-- TX[127] flipped: the parity row -/
theorem test_elc_dec_parity_row : gives (send 0xA5000080#32 (given 0xF3829FB8E85A50C03ACFB1F6E82B2723#128)) 0x1F2E3D4C5B6A79881726#77 128 0 true = true := by decide +kernel

theorem test_sb_enc : gives (send 0xA600000B#32 (given 0x5A3#11)) 0xB46FB46F#32 0 0 false = true := by decide +kernel

theorem test_sb_enc_rc : gives (send 0xA601000B#32 (given 0x5A3#11)) 0xE13A1EC5#32 0 0 false = true := by decide +kernel

/-- TX[2], TX[4] flipped -/
theorem test_sb_dec : gives (send 0xA7000020#32 (given 0x9C6FB46F#32)) 0x4E3#11 32 0 true = true := by decide +kernel

/-- TX[0] flipped -/
theorem test_sb_dec_rc : gives (send 0xA7010020#32 (given 0x613A1EC5#32)) 0x5A3#11 32 1 false = true := by decide +kernel

theorem test_sb_dec_rc_even_word : gives (send 0xA7010020#32 (given 0xB46FB46F#32)) 0x5A3#11 32 0 true = true := by decide +kernel

theorem test_slc_reset : answers (send 0xD0000000#32 { State.reset with slcCnt := 2#3, slcBuf := 0x063A3#68 })
    (fun t => t.slcCnt == 0#3 && t.slcBuf == 0#68 && t.status == 0x01#8 && t.outLen == 0#16) = true := by decide +kernel

/-- The second fragment F1 goes to bits 17 to 33. -/
theorem test_slc_push : answers (send 0xD1000011#32 { given 0x0D654#17 with slcCnt := 1#3, slcBuf := 0x00C74#17 ++ 0#51 })
    (fun t => t.slcCnt == 2#3 && t.slcBuf == (0x00C74#17 ++ 0x0D654#17 ++ 0#34 : BitVec 68) && t.status == 0x02#8 &&
      t.outLen == 0#16 && t.dout == 0#256) = true := by decide +kernel

/-- The fourth fragment, with 17'h0F654 in place of F1. -/
theorem test_slc_push_fourth : gives (send 0xD1000011#32 { given 0x06590#17 with
    slcCnt := 3#3, slcBuf := 0x00C74#17 ++ 0x0F654#17 ++ 0x1AE53#17 ++ 0#17 }) 0x123456789#36 68 1 false = true := by
  decide +kernel

theorem test_trl34_enc : gives (send 0xB0000090#32 (given 0x101112131415161718191A1B1C1D1E1F2021#144)) 0x2EA51024625AE555A01914242D16E6C939C55F6088678FA98#196 0 0 false = true := by decide +kernel

/-- point 5 forced to 1 -/
theorem test_trl34_dec : gives (send 0xB10000C4#32 (given 0x2EA51024625AE5A5A01914242D16E6C939C55F6088678FA98#196)) 0x101000131415161718191A1B1C1D1E1F2021#144 196 4 false = true := by decide +kernel

theorem test_trl34_dec_zeros : gives (send 0xB10000C4#32 (given 0#196)) 0xB6DB6DB6DB6DB6DB6DB6DB6DB6DB6DB6DB6D#144 196 48 false = true := by decide +kernel

theorem test_rs129_enc : gives (send 0xC0000048#32 (given 0x123456789ABCDEF001#72)) 0x123456789ABCDEF0017525C3#96 0 0 false = true := by decide +kernel

theorem test_rs129_synd : gives (send 0xC1000060#32 (given 0x123456229ABCDEF0017525C3#96)) 0x0C9C77#24 0 0 false = true := by decide +kernel

theorem test_rs129_check : gives (send 0xC2000060#32 (given 0x123456789ABCDEF0017525C3#96)) 1#1 0 0 false = true := by decide +kernel

theorem test_rs129_check_fails : gives (send 0xC2000060#32 (given 0x123456789ABCDEF0017525C2#96)) 0#1 0 0 false = true := by decide +kernel

/-- B[0] ^= FF -/
theorem test_rs129_corr : gives (send 0xC3000078#32 (given 0xED3456789ABCDEF0017525C36E8D51#120)) 0x123456789ABCDEF0017525C3#96 96 8 false = true := by decide +kernel

/-- a consistent syndrome whose position is past byte 0 -/
theorem test_rs129_corr_position : gives (send 0xC3000078#32 (given 0x123456789ABCDEF0017525C301B46A#120)) 0x123456789ABCDEF0017525C3#96 96 0 true = true := by decide +kernel

/-! 95_test_vectors.md 2.7: from a state with a result, DIN[0..15] written -/

/-- The state left by HAM743.ENC 0b1101. -/
def encoded : State := { given 0b1101000000000000#16 with dout := 0b1101001#7 ++ 0#249, outLen := 7#16, status := 0x01#8 }

theorem test_illegal_opcode : empties (send 0x13000005#32 encoded) 0x81#8 = true := by decide +kernel
theorem test_reserved_flags : empties (send 0x11010005#32 encoded) 0x82#8 = true := by decide +kernel
theorem test_reserved_flags_sb : empties (send 0xA602000B#32 encoded) 0x82#8 = true := by decide +kernel
theorem test_length_mismatch : empties (send 0x11000005#32 encoded) 0x80#8 = true := by decide +kernel
theorem test_length_mismatch_zero : empties (send 0x12000000#32 encoded) 0x80#8 = true := by decide +kernel
theorem test_sb_enc_rc_legal : gives (send 0xA601000B#32 encoded) 0x85407ABF#32 0 0 false = true := by decide +kernel

/-- The state `s` of a model that stops on unwritten operand bits (log 4). -/
def strict (s : State) : State := { s with params := ⟨.unconditional, .asDecided, .stops⟩ }

/-- 95_test_vectors.md Program 4, steps 1 and 2: the fault names bit 0 and leaves CMD written; a reserved OPC is no fault. -/
theorem test_unwritten_input : send 0x11000004#32 (strict State.reset) =
    .fault (.unwrittenInput 0 { strict State.reset with cmd := 0x11000004#32 }) := eq_of_faults (by decide +kernel)

theorem test_unwritten_not_read : empties (send 0x13000004#32 (strict State.reset)) 0x81#8 = true := by decide +kernel

/-- On hardware a command reads whatever the bits hold (10_state.md R34): 1101 held and never written. -/
theorem test_held_input : gives (send 0x11000004#32 { State.reset with din := 0b1101#4 ++ 0#252 }) 0b1101001#7 0 0 false = true := by
  decide +kernel

/-- `withFetchWord` on a word of 32 bits: the operand is zeros. -/
theorem test_withFetchWord : gives (step (State.reset.withFetchWord 32 0x11000004)) 0#7 0 0 false = true := by
  decide +kernel

/-- Bits above the word are the operand, DIN[0] first: 1000 has the check bits 101 (40_block_codes.md R108). -/
theorem test_withFetchWord_operand :
    gives (step (State.reset.withFetchWord 36 (0x10000004 + 2 ^ 32))) 0b101#3 0 0 false = true := by
  decide +kernel

/-! ### Witnesses: the hypotheses of each statement can be met -/

/-- `given v` has the operand written, and holds `v`. -/
theorem given_written {n : Nat} (v : BitVec n) (hn : n ≤ 256) : OperandWritten (given v) n := by
  intro i hi
  have h : i < 256 := by omega
  simp [given, dinMask, h, hi]

theorem given_holds {n : Nat} (v : BitVec n) (hn : n ≤ 256) : HoldsOperand (given v) v := by
  refine ⟨.inr (given_written v hn), fun i hi => ?_⟩
  have h : i < 256 := by omega
  simp [given, dinMask, h, hi, State.reset]

/-- The state with the accesses `as` pending. -/
def pending (as : List HostAccess) (s : State) : State := { s with inbox := as }

theorem witness_DecodeOfEncodeIsTheCommand : (Instr.sbEnc 1#8 12#16).canonical = true ∧ Instr.sbEncRc.canonical = true ∧
    (Instr.sbDec 0xFF#8 0xFFFF#16).canonical = true := by decide

theorem witness_EncodeOfDecodeIsTheWord : decode 0xA7010020#32 = .ok .sbDecRc ∧
    decode 0xD1FFFFFF#32 = .ok (.slcPush 0xFF#8 0xFFFF#16) := ⟨rfl, rfl⟩

theorem witness_ReservedOpcodesAreRejected : ¬ ListedOpc 0x13#8 ∧ ¬ ListedOpc 0xFF#8 ∧ ListedOpc 0xD1#8 := by
  refine ⟨?_, ?_, 17, 36, by decide⟩ <;> · rintro ⟨len, out, h⟩; simp [tableR71] at h

theorem witness_StepRunsTheDecodedCommand :
    (pending [.writeCmd 0x11000004#32] (given 0b1101#4)).inbox = .writeCmd 0x11000004#32 :: [] ∧
    decode 0x11000004#32 = .ok (.ham743Enc 0#8 4#16) := ⟨rfl, rfl⟩

/-- An unlisted OPC; for HAM743.ENC, reserved flags beside a wrong LEN, a wrong LEN, a written operand; for SB.ENC, ODD
alone is no reserved flag and FLG[1] is one. -/
theorem witness_ChecksDecideInOrder :
    ¬ ListedOpc (wordOpc 0x13000005#32) ∧
    ((wordOpc 0x11010005#32, 4, 7) ∈ tableR71 ∧ ReservedFlagsR333 (wordOpc 0x11010005#32) (wordFlags 0x11010005#32)) ∧
    ReservedFlagsR333 (wordOpc 0xA602000B#32) (wordFlags 0xA602000B#32) ∧
    ¬ ReservedFlagsR333 (wordOpc 0xA601000C#32) (wordFlags 0xA601000C#32) ∧ (wordLen 0xA601000C#32).toNat ≠ 11 ∧
    (¬ ReservedFlagsR333 (wordOpc 0x11000004#32) (wordFlags 0x11000004#32) ∧ (wordLen 0x11000004#32).toNat = 4 ∧
      OperandReadable (given 0b1101#4) 4 ∧ OperandReadable (strict (given 0b1101#4)) 4 ∧ OperandReadable State.reset 4) := by
  refine ⟨?_, ?_⟩
  · rintro ⟨len, out, h⟩; simp [tableR71, wordOpc] at h
  · unfold ReservedFlagsR333 OperandReadable OperandWritten; decide +kernel

/-- In a model that stops on unwritten bits: DIN[0..2] written, the operand DIN[0..3]: bit 3 is the first unwritten one. And nothing written: bit 0 is. -/
theorem witness_ChecksDecideInOrder_fault : (strict (given 0b110#3)).params.unwrittenInput = .stops ∧
    (strict (given 0b110#3)).dinWritten.getMsbD 3 = false ∧ OperandWritten (strict (given 0b110#3)) 3 ∧
    (strict State.reset).dinWritten.getMsbD 0 = false ∧ OperandWritten (strict State.reset) 0 := by
  unfold OperandWritten; decide +kernel

theorem witness_ErrorStatusEffects : answers (step (pending [.writeCmd 0x11000005#32] encoded)) (·.status == 0x80#8) = true ∧
    answers (step (pending [.writeCmd 0x13000004#32] encoded)) (·.status == 0x81#8) = true ∧
    answers (step (pending [.writeCmd 0x11010004#32] encoded)) (·.status == 0x82#8) = true := by decide +kernel

theorem witness_UnwrittenInputChangesOnlyCmd : step (pending [.writeCmd 0x11000004#32] (strict (given 0b110#3))) =
    .fault (.unwrittenInput 3 { strict (given 0b110#3) with cmd := 0x11000004#32 }) := eq_of_faults (by decide +kernel)

/-- HAM743.ENC; SLC.RESET, which has no operand; SLC.PUSH as the first and as the fourth push. -/
theorem witness_LegalCommandCompletes :
    ((Instr.ham743Enc 0#8 4#16).opcode, 4, 7) ∈ tableR71 ∧ ¬ ReservedFlagsR333 0x11#8 (Instr.ham743Enc 0#8 4#16).flags ∧
    (Instr.ham743Enc 0#8 4#16).length.toNat = 4 ∧ OperandReadable (given 0b1101#4) 4 ∧
    ((Instr.slcReset 0#8 0#16).opcode, 0, 0) ∈ tableR71 ∧ OperandReadable State.reset 0 ∧
    ((Instr.slcPush 0#8 17#16).opcode, 17, 36) ∈ tableR71 ∧ OperandReadable { given 0#17 with slcCnt := 3#3 } 17 ∧
    (Instr.sbEncRc.opcode, 11, 32) ∈ tableR71 ∧ ¬ ReservedFlagsR333 Instr.sbEncRc.opcode Instr.sbEncRc.flags := by
  unfold ReservedFlagsR333 OperandReadable OperandWritten; decide +kernel

/-- Every command of the table, legal: its row of R71, its FLG and LEN, and a state with its operand written. -/
def legalCommands : List Instr :=
  [.ham743Par 0#8 4#16, .ham743Enc 0#8 4#16, .ham743Dec 0#8 7#16, .ham1393Par 0#8 9#16, .ham1393Enc 0#8 9#16,
   .ham1393Dec 0#8 13#16, .ham15113Par 0#8 11#16, .ham15113Enc 0#8 11#16, .ham15113Dec 0#8 15#16,
   .ham16114Par 0#8 11#16, .ham16114Enc 0#8 11#16, .ham16114Dec 0#8 16#16, .ham17123Par 0#8 12#16,
   .ham17123Enc 0#8 12#16, .ham17123Dec 0#8 17#16, .gol2087Par 0#8 8#16, .gol2087Enc 0#8 8#16,
   .gol2087Dec 0#8 20#16, .gol23127Par 0#8 12#16, .gol23127Enc 0#8 12#16, .gol23127Dec 0#8 23#16,
   .gol24128Par 0#8 12#16, .gol24128Enc 0#8 12#16, .gol24128Dec 0#8 24#16, .qr1676Par 0#8 7#16,
   .qr1676Enc 0#8 7#16, .qr1676Dec 0#8 16#16, .bptc196Enc 0#8 96#16, .bptc196Dec 0#8 196#16, .cachEnc 0#8 36#16,
   .cachDec 0#8 68#16, .elcEnc 0#8 77#16, .elcDec 0#8 128#16, .sbEnc 0#8 11#16, .sbDec 0#8 32#16,
   .trl34Enc 0#8 144#16, .trl34Dec 0#8 196#16, .rs129Enc 0#8 72#16, .rs129Synd 0#8 96#16, .rs129Check 0#8 96#16,
   .rs129Corr 0#8 120#16, .slcReset 0#8 0#16, .slcPush 0#8 17#16, .sbEncRc, .sbDecRc]

theorem witness_LegalCommandCompletes_every : legalCommands.length = 45 ∧ ∀ i ∈ legalCommands,
    (∃ row ∈ tableR71, row.1 = i.opcode ∧ row.2.1 = i.length.toNat) ∧
    ¬ ReservedFlagsR333 i.opcode i.flags ∧ ∃ s, s.params.unwrittenInput = .stops ∧ OperandReadable s i.length.toNat := by
  refine ⟨by decide, fun i h => ?_⟩
  have hn : i.length.toNat ≤ 256 := by revert i; decide
  refine ⟨?_, ?_, strict (given 0#i.length.toNat), rfl, .inr (given_written 0#i.length.toNat hn)⟩
  · revert i; decide
  · revert i; unfold ReservedFlagsR333; decide

/-- Two states that differ above LEN: DIN[0..6] against DIN[0..3] written, and different old results. -/
theorem witness_OutcomeDependsOnlyOnTheOperand :
    (given 0b1101#4).cmd = { given 0b1101111#7 with status := 1#8 }.cmd ∧
    (given 0b1101#4).params = { given 0b1101111#7 with status := 1#8 }.params ∧
    ∀ j, j < (Instr.ham743Enc 0#8 4#16).length.toNat →
      (given 0b1101#4).dinWritten.getMsbD j = { given 0b1101111#7 with status := 1#8 }.dinWritten.getMsbD j ∧
      (given 0b1101#4).din.getMsbD j = { given 0b1101111#7 with status := 1#8 }.din.getMsbD j := by
  refine ⟨rfl, rfl, ?_⟩; decide +kernel

theorem witness_ResetSetsEveryRegister : (pending [.reset, .read .cmd] encoded).inbox = .reset :: [.read .cmd] := rfl

/-- A state with a written operand and a command to come meets the invariant. -/
theorem witness_EveryStepKeepsTheInvariant : (pending [.writeCmd 0x11000004#32] (given 0b1101#4)).Inv ∧
    answers (step (pending [.writeCmd 0x11000004#32] (given 0b1101#4))) (fun _ => true) = true := by
  refine ⟨⟨?_, ?_, ?_, ?_, ?_, ?_, ?_, ?_, ?_⟩, by decide +kernel⟩
  · exact .inl rfl
  · decide
  · intro p _; exact BitVec.getMsbD_zero
  · decide
  · intro i _; exact BitVec.getMsbD_zero
  · decide
  · intro _; exact ⟨rfl, rfl, rfl, rfl, rfl⟩
  · intro h; exact absurd h (by decide)
  · intro i h
    simp [pending, given, dinMask, State.reset] at h ⊢
    intro hi h'
    exact absurd h' (by have := h hi; omega)

theorem witness_OnlyAssemblerCommandsChangeTheAssembler :
    (∀ w, HostAccess.writeCmd 0x11000004#32 = .writeCmd w → wordOpc w ≠ 0xD0#8 ∧ wordOpc w ≠ 0xD1#8) ∧
    answers (step (pending [.writeCmd 0x11000004#32] encoded)) (fun _ => true) = true := by
  refine ⟨fun w h => ?_, by decide +kernel⟩
  cases h; decide

theorem witness_OnlyDinWritesAndResetChangeDin : HostAccess.writeCmd 0x11000004#32 ≠ .reset ∧
    (∀ mask value, HostAccess.writeCmd 0x11000004#32 ≠ .writeDin mask value) ∧
    answers (step (pending [.writeCmd 0x11000004#32] encoded)) (fun _ => true) = true := by
  refine ⟨by simp, by simp, by decide +kernel⟩

theorem witness_DinWriteProvidesTheOperand :
    (pending [dinAccess 0 0b1101#4] State.reset).inbox = dinAccess 0 0b1101#4 :: [] ∧
    (pending [dinAccess 0 (1#256)] State.reset).inbox = dinAccess 0 (1#256) :: [] ∧ (256 : Nat) ≤ 256 := by
  exact ⟨rfl, rfl, Nat.le_refl _⟩

/-- A mask with holes; ranges at both ends of DIN, and the range of R366. -/
theorem witness_DinWriteStoresTheSelectedBits :
    (pending [.writeDin 0xF0F0#256 0x1234#256] encoded).inbox = .writeDin 0xF0F0#256 0x1234#256 :: [] ∧
    (pending [dinAccess 96 0x0C9C77#24] encoded).inbox = dinAccess 96 0x0C9C77#24 :: [] ∧ 96 + 24 ≤ 256 ∧
    (pending [dinAccess 255 1#1] encoded).inbox = dinAccess 255 1#1 :: [] ∧ 255 + 1 ≤ 256 :=
  ⟨rfl, rfl, by decide, rfl, by decide⟩

/-- DIN[96..119] <- 24'h0C9C77 after DIN[0..15] (95_test_vectors.md Program 3). -/
theorem test_din_range : answers (step (pending [dinAccess 96 0x0C9C77#24] encoded)) (fun t =>
    slice t.din 96 24 == 0x0C9C77#24 && slice t.din 0 16 == 0b1101000000000000#16 &&
      slice t.dinWritten 0 128 == (0xFFFF#16 ++ 0#80 ++ 0xFFFFFF#24 ++ 0#8 : BitVec 128)) = true := by decide +kernel

/-- For HostReadsReturnTheRegisters: a written bit, and a held one. -/
theorem witness_HostReadsReturnTheRegisters : (strict encoded).dinWritten.getMsbD 15 = true ∧
    encoded.params.unwrittenInput = .held := by decide +kernel

theorem witness_ResultsStayUntilTheNextCommand : dinAccess 96 0x0C9C77#24 ≠ .reset ∧
    (∀ w, dinAccess 96 0x0C9C77#24 ≠ .writeCmd w) ∧
    answers (step (pending [dinAccess 96 0x0C9C77#24] encoded)) (fun _ => true) = true := by
  refine ⟨by simp [dinAccess], by simp [dinAccess], by decide +kernel⟩

theorem witness_ReadsAndIgnoredWritesChangeNothing :
    (pending [.read .din] encoded).inbox = .read .din :: [] ∧
    (pending [.writeResult .status 0#256] encoded).inbox = .writeResult .status 0#256 :: [] ∧ encoded.inbox = [] :=
  ⟨rfl, rfl, rfl⟩

theorem witness_CmdReadsBackTheLastWord :
    answers (step (pending [.writeCmd 0x13000004#32] encoded)) (fun _ => true) = true ∧
    step (pending [.writeCmd 0x11000004#32] (strict (given 0b110#3))) =
      .fault (.unwrittenInput 3 { strict (given 0b110#3) with cmd := 0x11000004#32 }) := ⟨by decide +kernel, eq_of_faults (by decide +kernel)⟩

/-- For ParityIsPolynomialDivision and EncodeIsDataThenParity: every row of R101 has an operand. -/
theorem witness_ParityIsPolynomialDivision : ∀ row ∈ blockRows, ∃ s, HoldsOperand s (1#row.k) := by
  intro row h
  exact ⟨given 1#row.k, given_holds _ (by revert row; decide)⟩

theorem witness_EncodeIsDataThenParity : rowQR1676 ∈ blockRows ∧ HoldsOperand (given 0b1010110#7) 0b1010110#7 :=
  ⟨by simp [blockRows], given_holds _ (by decide)⟩

/-- Three wrong bits, t of Golay(20,8,7), in the codeword of all ones (95_test_vectors.md S1 and 2.1). -/
theorem witness_DecodeIsBoundedDistance : rowG2087 ∈ blockRows ∧
    HoldsOperand (given 0b00011111110101101101#20) 0b00011111110101101101#20 ∧
    weight 0b11100000000000000000#20 = rowG2087.t ∧
    IsCodeword rowG2087 (fun i => (0b00011111110101101101#20 ^^^ 0b11100000000000000000#20).getMsbD i) := by
  refine ⟨by simp [blockRows], given_holds _ (by decide), by decide +kernel, ?_⟩
  unfold IsCodeword; decide +kernel

/-- A vector of weight at most 1 is zero or has one bit alone set. -/
theorem zero_or_unit {n : Nat} (e : BitVec n) (h : weight e ≤ 1) : e = 0#n ∨ ∃ j, j < n ∧ e = unitAt n j := by
  by_cases hz : e = 0#n
  · exact .inl hz
  right
  have : ∃ j, j < n ∧ e.getMsbD j = true := by
    by_contra hc
    exact hz (eq_of_bits fun i hi => by
      have := fun h => hc ⟨i, hi, h⟩
      simpa using this)
  obtain ⟨j, hj, hb⟩ := this
  refine ⟨j, hj, eq_of_bits fun i hi => ?_⟩
  by_cases hij : i = j
  · subst hij; simp [unitAt, hi, hb]
  · have h2 : e.getMsbD i = false := by
      by_contra hc
      have hc' : e.getMsbD i = true := by simpa using hc
      have hsub : ({i, j} : Finset Nat) ⊆ (Finset.range n).filter fun x => e.getMsbD x = true := by
        intro x hx
        simp only [Finset.mem_insert, Finset.mem_singleton] at hx
        rcases hx with rfl | rfl <;> simp [hi, hj, hb, hc']
      have hcard := Finset.card_le_card hsub
      rw [Finset.card_pair hij] at hcard
      have : weight e = ((Finset.range n).filter fun x => e.getMsbD x = true).card := by
        simp only [weight, Finset.card, Finset.filter_val, Finset.range_val, Multiset.range]
        simp [List.countP_eq_length_filter]
      omega
    simp [unitAt, hi, h2, hij]

/-- Two wrong bits in Hamming(16,11,4): no single error explains them (95_test_vectors.md 2.1, `2 errors at 0..1`). -/
theorem witness_DecodeIsBoundedDistance_uncorrectable : rowH16114 ∈ blockRows ∧
    HoldsOperand (given 0b0011111111111111#16) 0b0011111111111111#16 ∧
    ∀ e : BitVec 16, weight e ≤ rowH16114.t →
      ¬ IsCodeword rowH16114 fun i => (0b0011111111111111#16 ^^^ e).getMsbD i := by
  refine ⟨by simp [blockRows], given_holds _ (by decide), fun e he => ?_⟩
  rcases zero_or_unit e he with rfl | ⟨j, hj, rfl⟩
  · unfold IsCodeword; decide +kernel
  · revert j; unfold IsCodeword; decide +kernel

theorem witness_PerfectCodesAlwaysCorrect : ∀ row ∈ [rowH743, rowH15113, rowG23127],
    ∃ s, OperandReadable s (row.k + row.r) := by
  intro row h
  have hn : row.k + row.r ≤ 256 := by revert row; decide
  exact ⟨given 0#(row.k + row.r), .inr (given_written 0#(row.k + row.r) hn)⟩

/-- t+1 wrong bits of the zero codeword, for each of the four codes. -/
theorem witness_OneErrorTooManyIsDetected : ∀ row ∈ [rowH16114, rowG2087, rowG24128, rowQR1676],
    IsCodeword row (fun i => (0#(row.k + row.r)).getMsbD i) ∧
    weight (BitVec.ofNat (row.k + row.r) (2 ^ (row.t + 1) - 1)) = row.t + 1 ∧
    HoldsOperand (given (0#(row.k + row.r) ^^^ BitVec.ofNat (row.k + row.r) (2 ^ (row.t + 1) - 1)))
      (0#(row.k + row.r) ^^^ BitVec.ofNat (row.k + row.r) (2 ^ (row.t + 1) - 1)) := by
  intro row h
  refine ⟨?_, ?_, given_holds _ (by revert row; decide)⟩
  · revert row; unfold IsCodeword; decide +kernel
  · revert row; decide +kernel

theorem witness_DecodeCountsAreBounded : OperandReadable (given 0#20) 20 ∧ OperandReadable (strict (given 0#196)) 196 ∧
    OperandReadable State.reset 196 :=
  ⟨.inr (given_written 0#20 (by decide)), .inr (given_written 0#196 (by decide)), .inl rfl⟩

/-- For the three statements on BPTC(196,96) about an information word. -/
theorem witness_Bptc196EncodeFillsTheProductCode : HoldsOperand (given 0x0123456789ABCDEFFEDCBA98#96) 0x0123456789ABCDEFFEDCBA98#96 :=
  given_holds _ (by decide)

/-- A received vector with one wrong bit, and one that ends uncorrectable (TX[4], TX[26] flipped, 95_test_vectors.md 2.2). -/
theorem witness_Bptc196DecodeReportsItsMatrix :
    HoldsOperand (given 0x0D876E874DA1370BB8F1AB67EE84CEA4F83F8C5F41DC9A3CD#196)
      0x0D876E874DA1370BB8F1AB67EE84CEA4F83F8C5F41DC9A3CD#196 ∧
    HoldsOperand (given 0x01876EA74DA1370BB8F1AB67EE84CEA4F83F8C5F41DC9A3CD#196)
      0x01876EA74DA1370BB8F1AB67EE84CEA4F83F8C5F41DC9A3CD#196 := ⟨given_holds _ (by decide), given_holds _ (by decide)⟩

theorem witness_Bptc196RoundTrip : HoldsOperand (given 0x0123456789ABCDEFFEDCBA98#96) 0x0123456789ABCDEFFEDCBA98#96 ∧
    HoldsOperand (given 0x09876E874DA1370BB8F1AB67EE84CEA4F83F8C5F41DC9A3CD#196)
      0x09876E874DA1370BB8F1AB67EE84CEA4F83F8C5F41DC9A3CD#196 := ⟨given_holds _ (by decide), given_holds _ (by decide)⟩

/-- The wrong bit at TX[0], TX[1] and TX[195]. -/
theorem witness_Bptc196CorrectsEverySingleError : ∀ j ∈ [0, 1, 195], j < 196 ∧
    HoldsOperand (given (0x09876E874DA1370BB8F1AB67EE84CEA4F83F8C5F41DC9A3CD#196 ^^^ unitAt 196 j))
      (0x09876E874DA1370BB8F1AB67EE84CEA4F83F8C5F41DC9A3CD#196 ^^^ unitAt 196 j) := by
  intro j h
  exact ⟨by revert j; decide, given_holds _ (by decide)⟩

/-- TX[4], TX[26] flipped: all five passes fix something, and the loop stops at the ceiling (95_test_vectors.md 2.2). -/
theorem witness_PassLoopStopsAtTheCeiling : (repeatPasses pass196 passLimit (gather idx196
    0x01876EA74DA1370BB8F1AB67EE84CEA4F83F8C5F41DC9A3CD#196)).2 = 5 := by decide +kernel

/-- The reference pass of R205 changes that matrix, and so does that of R209 under `unconditional` where `column_gated` does
not: two wrong bits in one column, both in data rows. -/
theorem witness_rowPolicy :
    (passR209 .unconditional rowH17123 3 false (unitAt 68 0 ^^^ unitAt 68 17)).1 = 0#68 ∧
    (passR209 .columnGated rowH17123 3 false (unitAt 68 0 ^^^ unitAt 68 17)).1 = unitAt 68 0 ^^^ unitAt 68 17 := by
  decide +kernel

/-- For the two statements on two errors: M[0] with M[195]; two columns; one column, in rows 0 and 8; and rows 8 and 9. -/
theorem witness_Bptc196CorrectsTwoErrors : (0 < 195 ∧ 195 < 196) ∧ (1 - 1) % 15 ≠ (195 - 1) % 15 ∧
    ((1 - 1) % 15 = (121 - 1) % 15 ∧ (121 - 1) / 15 < 9) ∧
    ∀ a b, HoldsOperand
      (given (0x09876E874DA1370BB8F1AB67EE84CEA4F83F8C5F41DC9A3CD#196 ^^^ unitAt 196 (a * 181 % 196) ^^^
        unitAt 196 (b * 181 % 196)))
      (0x09876E874DA1370BB8F1AB67EE84CEA4F83F8C5F41DC9A3CD#196 ^^^ unitAt 196 (a * 181 % 196) ^^^
        unitAt 196 (b * 181 % 196)) :=
  ⟨by decide, by decide, by decide, fun _ _ => given_holds _ (by decide)⟩

/-- Rows 3 and 9 of a column fail, rows 0 and 9 do not. -/
theorem witness_Bptc196CheckRowPairs :
    (decode196 (unitAt 196 ((1 + 15 * 3) * 181 % 196) ^^^ unitAt 196 ((1 + 15 * 9) * 181 % 196))).2.uncorrectable = true ∧
    (decode196 (unitAt 196 (1 * 181 % 196) ^^^ unitAt 196 ((1 + 15 * 9) * 181 % 196))).2.uncorrectable = false ∧
    HoldsOperand (given (unitAt 196 ((1 + 15 * 3) * 181 % 196) ^^^ unitAt 196 ((1 + 15 * 9) * 181 % 196)))
      (unitAt 196 ((1 + 15 * 3) * 181 % 196) ^^^ unitAt 196 ((1 + 15 * 9) * 181 % 196)) :=
  ⟨by decide +kernel, by decide +kernel, given_holds _ (by decide)⟩

/-- Two transmit bits of one data row, for each of the three maps: the first row, and the last data row. -/
theorem witness_TwoErrorsInADataRowAreReported :
    ((0 % 4 * 17 + 0 / 4) / 17 = (64 % 4 * 17 + 64 / 4) / 17 ∧ (2 % 4 * 17 + 2 / 4) / 17 = 2 ∧ (66 % 4 * 17 + 66 / 4) / 17 = 2) ∧
    ((6 % 8 * 16 + 6 / 8) / 16 = 6 ∧ (126 % 8 * 16 + 126 / 8) / 16 = 6) ∧ ((17 * 0 % 32) / 16 = 0 ∧ (17 * 31 % 32) / 16 = 0) ∧
    HoldsOperand (given (0x063A359535CA66590#68 ^^^ unitAt 68 2 ^^^ unitAt 68 66)) (0x063A359535CA66590#68 ^^^ unitAt 68 2 ^^^ unitAt 68 66) :=
  ⟨by decide, by decide, by decide, given_holds _ (by decide)⟩

theorem witness_ParityColumnEncoders : HoldsOperand (given 0x123456789#36) 0x123456789#36 ∧
    HoldsOperand (given 0x1F2E3D4C5B6A79881726#77) 0x1F2E3D4C5B6A79881726#77 ∧
    HoldsOperand (given 0x5A3#11) 0x5A3#11 :=
  ⟨given_holds _ (by decide), given_holds _ (by decide), given_holds _ (by decide)⟩

/-- CACH with two wrong bits in one row, embedded LC with a wrong parity-row bit, single burst of either parity. -/
theorem witness_ParityColumnDecodersReportTheirMatrix :
    HoldsOperand (given (0x063A359535CA66590#68 ^^^ unitAt 68 0 ^^^ unitAt 68 4))
      (0x063A359535CA66590#68 ^^^ unitAt 68 0 ^^^ unitAt 68 4) ∧
    HoldsOperand (given (0xF3829FB8E85A50C03ACFB1F6E82B2722#128 ^^^ unitAt 128 127))
      (0xF3829FB8E85A50C03ACFB1F6E82B2722#128 ^^^ unitAt 128 127) ∧
    HoldsOperand (given 0xE13A1EC5#32) 0xE13A1EC5#32 :=
  ⟨given_holds _ (by decide), given_holds _ (by decide), given_holds _ (by decide)⟩

/-- A wrong bit in a data row and one in the parity row, at the edges of both, for each of the three maps. -/
theorem witness_ParityColumnRoundTrips :
    HoldsOperand (given 0x123456789#36) 0x123456789#36 ∧
    (∀ j, j < 68 → HoldsOperand (given (0x063A359535CA66590#68 ^^^ unitAt 68 j)) (0x063A359535CA66590#68 ^^^ unitAt 68 j)) ∧
    (0 % 4 * 17 + 0 / 4 < 51 ∧ 66 % 4 * 17 + 66 / 4 = 50 ∧ 3 % 4 * 17 + 3 / 4 = 51 ∧ 51 ≤ 67 % 4 * 17 + 67 / 4) ∧
    (126 % 8 * 16 + 126 / 8 = 111 ∧ 7 % 8 * 16 + 7 / 8 = 112) ∧ (17 * 15 % 32 = 31 ∧ 17 * 16 % 32 = 16 ∧ 17 * 31 % 32 = 15) := by
  exact ⟨given_holds _ (by decide), fun j _ => given_holds _ (by decide), by decide, by decide, by decide⟩

theorem witness_WrongColumnParityIsReported : HoldsOperand (given 0x5A3#11) 0x5A3#11 ∧
    HoldsOperand (given 0xB46FB46F#32) 0xB46FB46F#32 ∧ HoldsOperand (given 0xE13A1EC5#32) 0xE13A1EC5#32 :=
  ⟨given_holds _ (by decide), given_holds _ (by decide), given_holds _ (by decide)⟩

/-- No fragment held, and two. -/
theorem witness_SlcPushStoresTheFragment : HoldsOperand (given 0x00C74#17) 0x00C74#17 ∧ (given 0x00C74#17).slcCnt.toNat < 3 ∧
    HoldsOperand { given 0x00C74#17 with slcCnt := 2#3 } 0x00C74#17 ∧ { given 0x00C74#17 with slcCnt := 2#3 }.slcCnt.toNat < 3 :=
  ⟨given_holds _ (by decide), by decide, given_holds 0x00C74#17 (by decide), by decide⟩

theorem witness_FourPushesDecodeAsCach :
    (pending [.writeCmd 0xD0000000#32, dinAccess 0 0x00C74#17, .writeCmd 0xD1000011#32, dinAccess 0 0x0D654#17,
      .writeCmd 0xD1000011#32, dinAccess 0 0x1AE53#17, .writeCmd 0xD1000011#32, dinAccess 0 0x06590#17,
      .writeCmd 0xD1000011#32] State.reset).params =
        (given (0x00C74#17 ++ 0x0D654#17 ++ 0x1AE53#17 ++ 0x06590#17)).params ∧
    HoldsOperand (given (0x00C74#17 ++ 0x0D654#17 ++ 0x1AE53#17 ++ 0x06590#17))
      (0x00C74#17 ++ 0x0D654#17 ++ 0x1AE53#17 ++ 0x06590#17) := ⟨rfl, given_holds _ (by decide)⟩

theorem witness_TrellisEncodePlacesEverySymbol : HoldsOperand (given 0x101112131415161718191A1B1C1D1E1F2021#144)
    0x101112131415161718191A1B1C1D1E1F2021#144 := given_holds _ (by decide)

theorem witness_TrellisRoundTrip : HoldsOperand (given 0x101112131415161718191A1B1C1D1E1F2021#144)
      0x101112131415161718191A1B1C1D1E1F2021#144 ∧
    HoldsOperand (given 0x2EA51024625AE555A01914242D16E6C939C55F6088678FA98#196)
      0x2EA51024625AE555A01914242D16E6C939C55F6088678FA98#196 := ⟨given_holds _ (by decide), given_holds _ (by decide)⟩

theorem witness_TrellisDecodeFollowsThePolicy : HoldsOperand (given 0#196) 0#196 ∧
    HoldsOperand (given 0x2EA51024625AE555A01914242D16E6C939C55F6088678FA98#196)
      0x2EA51024625AE555A01914242D16E6C939C55F6088678FA98#196 := ⟨given_holds _ (by decide), given_holds _ (by decide)⟩

/-- 144 zeros are sent as 196'h222…2: a path of 49 zero tribits (95_test_vectors.md 2.5). -/
theorem witness_TrellisDecodeCountsExactlyTheOffPathWords :
    HoldsOperand (given 0x2222222222222222222222222222222222222222222222222#196)
      0x2222222222222222222222222222222222222222222222222#196 ∧
    pointsFrom 0#3 (List.replicate 49 0#3) = receivedPoints 0x2222222222222222222222222222222222222222222222222#196 :=
  ⟨given_holds _ (by decide), by decide +kernel⟩

/-- 196 zeros are 49 points 10: the first is tribit 5, and from state 5 no tribit gives point 10. -/
theorem witness_TrellisInvalidSymbolIsCounted : HoldsOperand (given 0#196) 0#196 ∧
    receivedPoints 0#196 = pointsFrom 0#3 [5#3] ++ 10#4 :: List.replicate 47 10#4 ∧
    ∀ t, trellisPoint ([5#3].getLastD 0#3) t ≠ 10#4 := ⟨given_holds _ (by decide), by decide +kernel, by decide +kernel⟩

/-- For GfTablesArePowersOfAlpha and TableArithmeticIsTheField: a non-zero byte. -/
theorem witness_GfTablesArePowersOfAlpha : (0x8E#8 : Byte) ≠ 0#8 ∧ gfLog 0x8E#8 = 254 := by decide +kernel

theorem witness_RsEncodeMakesACodeword : HoldsOperand (given 0x123456789ABCDEF001#72) 0x123456789ABCDEF001#72 :=
  given_holds _ (by decide)

theorem witness_RsSyndromeAndCheck : HoldsOperand (given 0x123456789ABCDEF0017525C3#96) 0x123456789ABCDEF0017525C3#96 ∧
    IsRsCodeword 0x123456789ABCDEF0017525C3#96 ∧ ¬ IsRsCodeword 0x123456789ABCDEF0017525C2#96 := by
  refine ⟨given_holds _ (by decide), ?_⟩
  unfold IsRsCodeword; decide +kernel

/-- The zero syndrome; one byte error at p = 0 and at p = 11; and the syndrome 01 00 00, of no single byte error. -/
theorem witness_RsCorrectAppliesTheGivenSyndrome :
    HoldsOperand (given (0x123456789ABCDEF0017525C3#96 ++ 0#8 ++ 0#8 ++ 0#8)) (0x123456789ABCDEF0017525C3#96 ++ 0#8 ++ 0#8 ++ 0#8) ∧
    (∀ p ∈ [0, 11], HoldsOperand
      (given (0#96 ++ gfTimes 0xFF#8 (alphaRef p) ++ gfTimes 0xFF#8 (alphaRef (2 * p)) ++ gfTimes 0xFF#8 (alphaRef (3 * p))))
      (0#96 ++ gfTimes 0xFF#8 (alphaRef p) ++ gfTimes 0xFF#8 (alphaRef (2 * p)) ++ gfTimes 0xFF#8 (alphaRef (3 * p)))) ∧
    HoldsOperand (given (0#96 ++ 1#8 ++ 0#8 ++ 0#8)) (0#96 ++ 1#8 ++ 0#8 ++ 0#8) ∧
    ∀ (p : Nat) (y : Byte), p ≤ 11 → ¬ (1#8 = gfTimes y (alphaRef p) ∧ 0#8 = gfTimes y (alphaRef (2 * p)) ∧
      0#8 = gfTimes y (alphaRef (3 * p))) := by
  refine ⟨given_holds _ (by decide), fun p _ => given_holds _ (by decide), given_holds _ (by decide), fun p y hp => ?_⟩
  have h : ∀ p, p ≤ 11 → ∀ y : Byte, ¬ (1#8 = gfTimes y (alphaRef p) ∧ 0#8 = gfTimes y (alphaRef (2 * p))) := by
    decide +kernel
  exact fun hc => h p hp y ⟨hc.1, hc.2.1⟩

/-- The codeword of 95_test_vectors.md 2.6, a wrong byte at its first and at its last place. -/
theorem witness_RsCorrectsEverySingleByteError : IsRsCodeword 0x123456789ABCDEF0017525C3#96 ∧
    ∀ i ∈ [0, 11], HoldsOperand (given (0x123456789ABCDEF0017525C3#96 ^^^ byteError i 0xFF#8))
      (0x123456789ABCDEF0017525C3#96 ^^^ byteError i 0xFF#8) := by
  refine ⟨?_, fun i _ => given_holds _ (by decide)⟩
  unfold IsRsCodeword; decide +kernel

theorem witness_RsDetectsEveryTwoByteError : IsRsCodeword 0x123456789ABCDEF0017525C3#96 ∧
    HoldsOperand (given (0x123456789ABCDEF0017525C3#96 ^^^ byteError 0 0x11#8 ^^^ byteError 11 0x22#8))
      (0x123456789ABCDEF0017525C3#96 ^^^ byteError 0 0x11#8 ^^^ byteError 11 0x22#8) := by
  refine ⟨?_, given_holds _ (by decide)⟩
  unfold IsRsCodeword; decide +kernel

end Sys2Proof.Machine.Tests
end

section
/-! The decoder and the table of 30_encoding.md R71: what a decoded word says of its command, which words decode, and the
reserved flags of the rules as the check of the model. -/

namespace Sys2Proof.Machine

/-- The fields of a decoded command are those of the word (30_encoding.md R70, R76). -/
theorem decodeOpc_fields {opc flg : BitVec 8} {len : BitVec 16} {i : Instr} (h : decodeOpc opc flg len = some i) :
    i.opcode = opc ∧ i.flags = flg ∧ i.length = len := by
  unfold decodeOpc at h
  split at h
  case h_34 | h_35 =>
    split at h
    · next hrc =>
      obtain ⟨rfl, rfl⟩ : flg = _ ∧ len = _ := by simpa using hrc
      cases h
      exact ⟨rfl, rfl, rfl⟩
    · cases h
      exact ⟨rfl, rfl, rfl⟩
  all_goals cases h
  all_goals exact ⟨rfl, rfl, rfl⟩

theorem decode_ok_iff {w : Word} {i : Instr} :
    decode w = .ok i ↔ decodeOpc (wordOpc w) (wordFlags w) (wordLen w) = some i := by
  unfold decode
  cases decodeOpc (wordOpc w) (wordFlags w) (wordLen w) <;> simp

theorem decode_fields {w : Word} {i : Instr} (h : decode w = .ok i) :
    i.opcode = wordOpc w ∧ i.flags = wordFlags w ∧ i.length = wordLen w :=
  decodeOpc_fields (decode_ok_iff.mp h)

/-- OPC and LEN of the rows of R71. -/
def keysR71 : List (BitVec 8 × Nat) := tableR71.map fun row => (row.1, row.2.1)

theorem mem_keysR71 {opc : BitVec 8} {required : Nat} :
    (opc, required) ∈ keysR71 ↔ ∃ out, (opc, required, out) ∈ tableR71 := by
  simp [keysR71]

/-- No OPC has two rows. -/
theorem keysR71_nodup : (keysR71.map Prod.fst).Nodup := by decide

theorem keysR71_unique {opc : BitVec 8} {m n : Nat} (hm : (opc, m) ∈ keysR71) (hn : (opc, n) ∈ keysR71) : m = n :=
  congrArg Prod.snd (List.inj_on_of_nodup_map keysR71_nodup hm hn rfl)

/-- Every command has its row, with the length it requires. -/
theorem opcode_mem_keysR71 (i : Instr) : (i.opcode, i.requiredLen) ∈ keysR71 := by
  cases i <;> exact of_decide_eq_true rfl

/-- Every row of R71 decodes, whatever FLG and LEN are (30_encoding.md R76). -/
theorem decodeOpc_of_mem_keysR71 {opc : BitVec 8} {required : Nat} (h : (opc, required) ∈ keysR71) (flg : BitVec 8)
    (len : BitVec 16) : ∃ i, decodeOpc opc flg len = some i := by
  have rows : keysR71.all (fun row => (decodeOpc row.1 flg len).isSome) = true := rfl
  exact Option.isSome_iff_exists.mp (List.all_eq_true.mp rows _ h)

/-- A word whose OPC is listed decodes to a command with the row's length. -/
theorem decode_of_mem_tableR71 {w : Word} {required out : Nat} (h : (wordOpc w, required, out) ∈ tableR71) :
    ∃ i, decode w = .ok i ∧ i.requiredLen = required := by
  have hkey : (wordOpc w, required) ∈ keysR71 := mem_keysR71.mpr ⟨out, h⟩
  obtain ⟨i, hi⟩ := decodeOpc_of_mem_keysR71 hkey (wordFlags w) (wordLen w)
  have hopc : i.opcode = wordOpc w := (decodeOpc_fields hi).1
  exact ⟨i, decode_ok_iff.mpr hi, keysR71_unique (hopc ▸ opcode_mem_keysR71 i) hkey⟩

/-- A word that decodes has a listed OPC. -/
theorem listedOpc_of_decode {w : Word} {i : Instr} (h : decode w = .ok i) : ListedOpc (wordOpc w) := by
  obtain ⟨out, hrow⟩ := mem_keysR71.mp (opcode_mem_keysR71 i)
  obtain ⟨hopc, -, -⟩ := decode_fields h
  exact ⟨i.requiredLen, out, hopc ▸ hrow⟩

theorem hasOdd_eq_opcode (i : Instr) : i.hasOdd = (i.opcode == 0xA6#8 || i.opcode == 0xA7#8) := by
  cases i <;> rfl

/-- The reserved flags of R333 are what check 2 tests. -/
theorem flagsReserved_iff (i : Instr) (flg : BitVec 8) :
    flagsReserved i.hasOdd flg = true ↔ ReservedFlagsR333 i.opcode flg := by
  simp [flagsReserved, ReservedFlagsR333, hasOdd_eq_opcode]

theorem lengthWrong_eq_false {required : Nat} {len : BitVec 16} :
    lengthWrong required len = false ↔ len.toNat = required := by
  simp [lengthWrong]

end Sys2Proof.Machine
end

section
/-! What the decoders report: every outcome record is within the bounds of 10_state.md R26 and 00_scope.md R16. -/

namespace Sys2Proof.Machine

/-- No more errors than bits checked, and at most 196 of those. -/
def FecResult.Bounded (fec : FecResult) : Prop :=
  fec.errorsCorrected ≤ fec.bitsChecked ∧ fec.bitsChecked ≤ 196

theorem noFec_bounded : noFec.Bounded := ⟨Nat.le_refl _, Nat.zero_le _⟩

theorem decodeBlock_bounded {k r : Nat} (C : BlockCode k r) (c : BitVec (k + r)) (hn : k + r ≤ 196) :
    (decodeBlock C c).2.Bounded := by
  rcases decodeBlock_cases C c with ⟨-, h⟩ | ⟨-, e, -, h⟩ | ⟨-, -, h⟩ <;> rw [h]
  · exact ⟨Nat.zero_le _, hn⟩
  · exact ⟨weight_le e, hn⟩
  · exact ⟨Nat.zero_le _, hn⟩

theorem changed196_le (m m0 : BitVec 196) : changed196 m m0 ≤ 196 := by
  have h : changed196 m m0 ≤ ((List.range 195).map (· + 1)).length := List.countP_le_length
  simp only [List.length_map, List.length_range] at h
  omega

theorem decode196_bounded (tx : BitVec 196) : (decode196 tx).2.Bounded :=
  ⟨changed196_le _ _, Nat.le_refl _⟩

theorem decodeParity_bounded {k r : Nat} (policy : RowPolicy) (C : BlockCode k r) (dataRows : Nat) (odd : Bool)
    (map : List Nat) {n : Nat} (tx : BitVec n) (hn : n ≤ 196) :
    (decodeParity policy C dataRows odd map tx).2.Bounded :=
  ⟨weight_le _, hn⟩

/-- The trellis decoder counts at most one invalid transition per symbol (42_trellis.md R271). -/
theorem decodePoints_count_le (s : BitVec 3) (ps : List (BitVec 4)) : (decodePoints s ps).2 ≤ ps.length := by
  induction ps generalizing s with
  | nil => exact Nat.le_refl _
  | cons p ps ih =>
    rcases decodePoints_cons_cases s p ps with ⟨t, -, h⟩ | ⟨-, h⟩ <;> rw [h]
    · exact Nat.le_succ_of_le (ih t)
    · exact Nat.succ_le_succ (ih s)

theorem decodeTrellis_bounded (tx : BitVec 196) : (decodeTrellis tx).2.Bounded := by
  have h : (decodePoints 0#3 (receivedPoints tx)).2 ≤ (receivedPoints tx).length := decodePoints_count_le _ _
  have hlen : (receivedPoints tx).length = 49 := by simp [receivedPoints]
  exact ⟨Nat.le_trans (hlen ▸ h) (by decide : 49 ≤ 196), Nat.le_refl 196⟩

theorem correctRs_bounded (b : BitVec 96) (s1 s2 s3 : Byte) : (correctRs b s1 s2 s3).2.Bounded := by
  have hlen : 96 ≤ 196 := by decide
  unfold correctRs
  split
  · exact ⟨Nat.zero_le _, hlen⟩
  · split
    · exact ⟨Nat.le_trans (weight_le _) (by decide : 8 ≤ 96), hlen⟩
    · exact ⟨Nat.zero_le _, hlen⟩

end Sys2Proof.Machine
end

section
/-! What a command's rule, a command and a host write to CMD can do, said once for all 45 commands. -/

namespace Sys2Proof.Machine

/-- An encoder's rule: it puts out a vector of the operand alone. -/
def IsEncodeRule (rule : State → State) : Prop :=
  ∃ (n : Nat) (out : BitVec n), n ≤ 196 ∧ rule = resultPlain out

/-- A decoder's rule: it puts out what a decoder with bounded counts makes of the vector `received` under the row policy. -/
def IsDecodeRule {m : Nat} (received : BitVec m) (rule : State → State) : Prop :=
  ∃ (n : Nat) (decoder : RowPolicy → BitVec n × FecResult), n ≤ 196 ∧ (∀ policy, (decoder policy).2.Bounded) ∧
    rule = fun s => resultDecoded received (decoder s.params.rowPolicy) s

theorem decodeBlock_isDecodeRule {k r : Nat} (C : BlockCode k r) (c : BitVec (k + r)) (hn : k + r ≤ 196) :
    IsDecodeRule c (resultDecoded c (decodeBlock C c)) :=
  ⟨k + r, fun _ => decodeBlock C c, hn, fun _ => decodeBlock_bounded C c hn, rfl⟩

theorem decodeParity_isDecodeRule {k r : Nat} (C : BlockCode k r) (dataRows : Nat) (odd : Bool) (map : List Nat) {n : Nat}
    (tx : BitVec n) (hn : n ≤ 196) (hout : dataRows * k ≤ 196) :
    IsDecodeRule tx fun s => resultDecoded tx (decodeParity s.params.rowPolicy C dataRows odd map tx) s :=
  ⟨dataRows * k, (decodeParity · C dataRows odd map tx), hout, fun _ => decodeParity_bounded _ C dataRows odd map tx hn, rfl⟩

/-- Everything a command's rule can be: an encoder's, a decoder's of the operand, or that of an assembler command. -/
theorem ruleOf_cases (i : Instr) (d : BitVec i.requiredLen) :
    IsEncodeRule (ruleOf i d) ∨ IsDecodeRule d (ruleOf i d) ∨
    (i.opcode = 0xD0#8 ∧ ruleOf i d = fun s => resultPlain 0#0 { s with slcBuf := 0#68, slcCnt := 0#3 }) ∨
    (i.opcode = 0xD1#8 ∧ ∃ f, ruleOf i d = pushFragment f) := by
  cases i with
  | ham743Par | ham743Enc | ham1393Par | ham1393Enc | ham15113Par | ham15113Enc | ham16114Par | ham16114Enc | ham17123Par
  | ham17123Enc | gol2087Par | gol2087Enc | gol23127Par | gol23127Enc | gol24128Par | gol24128Enc | qr1676Par | qr1676Enc
  | bptc196Enc | cachEnc | elcEnc | sbEnc | sbEncRc | trl34Enc | rs129Enc | rs129Synd | rs129Check =>
    exact .inl ⟨_, _, by decide, rfl⟩
  | ham743Dec => exact .inr (.inl (decodeBlock_isDecodeRule h743 d (by decide)))
  | ham1393Dec => exact .inr (.inl (decodeBlock_isDecodeRule h1393 d (by decide)))
  | ham15113Dec => exact .inr (.inl (decodeBlock_isDecodeRule h15113 d (by decide)))
  | ham16114Dec => exact .inr (.inl (decodeBlock_isDecodeRule h16114 d (by decide)))
  | ham17123Dec => exact .inr (.inl (decodeBlock_isDecodeRule h17123 d (by decide)))
  | gol2087Dec => exact .inr (.inl (decodeBlock_isDecodeRule g2087 d (by decide)))
  | gol23127Dec => exact .inr (.inl (decodeBlock_isDecodeRule g23127 d (by decide)))
  | gol24128Dec => exact .inr (.inl (decodeBlock_isDecodeRule g24128 d (by decide)))
  | qr1676Dec => exact .inr (.inl (decodeBlock_isDecodeRule qr1676 d (by decide)))
  | bptc196Dec => exact .inr (.inl ⟨96, fun _ => decode196 d, by decide, fun _ => decode196_bounded d, rfl⟩)
  | cachDec => exact .inr (.inl (decodeParity_isDecodeRule h17123 3 false cachIdx d (by decide : 68 ≤ 196) (by decide)))
  | elcDec => exact .inr (.inl (decodeParity_isDecodeRule h16114 7 false elcIdx d (by decide : 128 ≤ 196) (by decide)))
  | sbDec flg =>
    exact .inr (.inl (decodeParity_isDecodeRule h16114 1 (flg.getLsbD 0) sbIdx d (by decide : 32 ≤ 196) (by decide)))
  | sbDecRc => exact .inr (.inl (decodeParity_isDecodeRule h16114 1 true sbIdx d (by decide : 32 ≤ 196) (by decide)))
  | trl34Dec => exact .inr (.inl ⟨144, fun _ => decodeTrellis d, by decide, fun _ => decodeTrellis_bounded d, rfl⟩)
  | rs129Corr =>
    exact .inr (.inl ⟨96, fun _ => correctRs (slice d 0 96) (byteAt d 12) (byteAt d 13) (byteAt d 14), by decide,
      fun _ => correctRs_bounded _ _ _ _, rfl⟩)
  | slcReset => exact .inr (.inr (.inl ⟨rfl, rfl⟩))
  | slcPush => exact .inr (.inr (.inr ⟨rfl, d, rfl⟩))

end Sys2Proof.Machine
end

section
/-! What a command, a host write to CMD and a step can do: the next states and the faults they answer. -/

namespace Sys2Proof.Machine

/-- Check 2 of 60_exceptions.md R336 decides first. -/
theorem exec_of_reservedFlags {i : Instr} (s : State) (hf : flagsReserved i.hasOdd i.flags = true) :
    exec i s = .next (raise .reservedFlags s) := by
  simp [exec_eq_command, command, hf]

/-- Then check 3. -/
theorem exec_of_lengthWrong {i : Instr} (s : State) (hf : flagsReserved i.hasOdd i.flags = false)
    (hl : lengthWrong i.requiredLen i.length = true) : exec i s = .next (raise .lengthMismatch s) := by
  simp [exec_eq_command, command, hf, hl]

/-- Then check 4. -/
theorem exec_of_missingInput {i : Instr} {s : State} {j : Nat} (hf : flagsReserved i.hasOdd i.flags = false)
    (hl : lengthWrong i.requiredLen i.length = false) (hm : missingInput s i.requiredLen = some j) :
    exec i s = .fault (.unwrittenInput j s) := by
  simp [exec_eq_command, command, hf, hl, hm]

/-- With every check passed the command performs its rule. -/
theorem exec_of_checks {i : Instr} {s : State} (hf : flagsReserved i.hasOdd i.flags = false)
    (hl : lengthWrong i.requiredLen i.length = false) (hm : missingInput s i.requiredLen = none) :
    exec i s = .next (ruleOf i (operand s i.requiredLen) s) := by
  simp [exec_eq_command, command, hf, hl, hm]

/-- A next state of a command is that of an error status or that of its rule. -/
theorem exec_next {i : Instr} {s t : State} (h : exec i s = .next t) :
    (∃ st, st ≠ .slcPending ∧ t = raise st s) ∨ t = ruleOf i (operand s i.requiredLen) s := by
  rw [exec_eq_command] at h
  rcases command_cases i.hasOdd i.requiredLen i.flags i.length (ruleOf i) s with
    ⟨-, hc⟩ | ⟨-, -, hc⟩ | ⟨-, -, j, -, hc⟩ | ⟨-, -, -, hc⟩ <;> rw [hc] at h <;> cases h
  · exact .inl ⟨.reservedFlags, by decide, rfl⟩
  · exact .inl ⟨.lengthMismatch, by decide, rfl⟩
  · exact .inr rfl

/-- A fault of a command leaves the state as it was; LEN is right and check 4 fails. -/
theorem exec_fault {i : Instr} {s u : State} {j : Nat} (h : exec i s = .fault (.unwrittenInput j u)) :
    u = s ∧ i.length.toNat = i.requiredLen ∧ missingInput s i.requiredLen = some j := by
  rw [exec_eq_command] at h
  rcases command_cases i.hasOdd i.requiredLen i.flags i.length (ruleOf i) s with
    ⟨-, hc⟩ | ⟨-, -, hc⟩ | ⟨-, hl, k, hm, hc⟩ | ⟨-, -, -, hc⟩ <;> rw [hc] at h <;> cases h
  exact ⟨rfl, lengthWrong_eq_false.mp hl, hm⟩

theorem performWord_of_decode {w : Word} {i : Instr} (s : State) (hd : decode w = .ok i) :
    performWord w s = exec i { s with cmd := w } := by
  simp [performWord, hd]

theorem performWord_of_unlisted {w : Word} (s : State) (hw : ¬ ListedOpc (wordOpc w)) :
    performWord w s = .next (raise .illegalOpcode { s with cmd := w }) := by
  rcases performWord_cases w s with ⟨i, hd, -⟩ | ⟨-, -, h⟩
  · exact absurd (listedOpc_of_decode hd) hw
  · exact h

/-- A next state of a host write to CMD is that of an error status or that of the decoded command's rule. -/
theorem performWord_next {w : Word} {s t : State} (h : performWord w s = .next t) :
    (∃ st, st ≠ .slcPending ∧ t = raise st { s with cmd := w }) ∨
    ∃ i, decode w = .ok i ∧ t = ruleOf i (operand s i.requiredLen) { s with cmd := w } := by
  rcases performWord_cases w s with ⟨i, hd, hp⟩ | ⟨-, -, hp⟩ <;> rw [hp] at h
  · exact (exec_next h).imp id fun ht => ⟨i, hd, ht⟩
  · cases h
    exact .inl ⟨.illegalOpcode, by decide, rfl⟩

/-- A fault of a host write to CMD leaves the word stored and is that of the decoded command. -/
theorem performWord_fault {w : Word} {s u : State} {j : Nat} (h : performWord w s = .fault (.unwrittenInput j u)) :
    u = { s with cmd := w } ∧ missingInput s (wordLen w).toNat = some j := by
  rcases performWord_cases w s with ⟨i, hd, hp⟩ | ⟨-, -, hp⟩ <;> rw [hp] at h
  · obtain ⟨hu, hlen, hm⟩ := exec_fault h
    obtain ⟨-, -, hwl⟩ := decode_fields hd
    rw [← hlen, hwl] at hm
    exact ⟨hu, hm⟩
  · cases h

/-- A step performs the oldest pending access. -/
theorem step_of_pending {s : State} {a : HostAccess} {rest : List HostAccess} (hin : s.inbox = a :: rest) :
    step s = performAccess a { s with inbox := rest } := by
  simp [step, serveHost, hin]

/-- Everything the next state of a step on the access `a` can be. -/
theorem step_next {s t : State} {a : HostAccess} {rest : List HostAccess} (hin : s.inbox = a :: rest)
    (h : step s = .next t) :
    (∃ w, a = .writeCmd w ∧ performWord w { s with inbox := rest } = .next t) ∨
    (∃ mask value, a = .writeDin mask value ∧ t = storeDin mask value { s with inbox := rest }) ∨
    (a = .reset ∧ t = resetBlock { s with inbox := rest }) ∨
    t = { s with inbox := rest } := by
  rw [step_of_pending hin] at h
  cases a with
  | writeCmd w => exact .inl ⟨w, rfl, h⟩
  | writeDin mask value => cases h; exact .inr (.inl ⟨mask, value, rfl, rfl⟩)
  | reset => cases h; exact .inr (.inr (.inl ⟨rfl, rfl⟩))
  | writeResult | read => cases h; exact .inr (.inr (.inr rfl))

end Sys2Proof.Machine
end

section
/-! The bits of DIN and of its written marks after a host write. -/

namespace Sys2Proof.Machine

/-- A DIN bit after a host write: the mask chooses between the new and the old one. -/
theorem storeDin_din_getMsbD (mask value : Port) (s : State) (j : Nat) :
    (storeDin mask value s).din.getMsbD j = if mask.getMsbD j then value.getMsbD j else s.din.getMsbD j := by
  by_cases hj : j < 256
  · cases h : mask.getMsbD j <;> simp [hj, h]
  · simp [BitVec.getMsbD_of_ge _ _ (Nat.le_of_not_lt hj)]

theorem storeDin_dinWritten_getMsbD (mask value : Port) (s : State) (j : Nat) :
    (storeDin mask value s).dinWritten.getMsbD j = (mask.getMsbD j || s.dinWritten.getMsbD j) := by
  simp [Bool.or_comm]

@[simp] theorem getMsbD_dinMask (first len j : Nat) :
    (dinMask first len).getMsbD j = (decide (j < 256) && (decide (first ≤ j) && decide (j < first + len))) := by
  simp [dinMask]

end Sys2Proof.Machine
end

section
/-! The frames of the commands' rules: what they never change, and what SLC.PUSH does to the assembler. -/

namespace Sys2Proof.Machine

/-- SLC.PUSH before the fourth fragment: the fragment is stored and the status is SLC_PENDING (41_bptc.md R229). -/
theorem pushFragment_pending {s : State} (f : BitVec 17) (h : s.slcCnt.toNat < 3) :
    pushFragment f s = raise .slcPending
      { s with slcBuf := storeFragment s.slcBuf s.slcCnt.toNat f, slcCnt := s.slcCnt + 1#3 } := by
  simp [pushFragment, raise, h]

/-- SLC.PUSH of the fourth fragment: the assembled vector is decoded and the assembler cleared (41_bptc.md R229). -/
theorem pushFragment_fourth {s : State} (f : BitVec 17) (h : ¬ s.slcCnt.toNat < 3) :
    pushFragment f s = resultDecoded (storeFragment s.slcBuf s.slcCnt.toNat f)
      (decodeCach s.params.rowPolicy (storeFragment s.slcBuf s.slcCnt.toNat f))
      { s with slcBuf := 0#68, slcCnt := 0#3 } := by
  simp [pushFragment, h]

/-- What no command changes: CMD (already written), DIN and its marks, the parameters, the accesses to come. -/
def KeepsInputs (s t : State) : Prop :=
  t.cmd = s.cmd ∧ t.din = s.din ∧ t.dinWritten = s.dinWritten ∧ t.params = s.params ∧ t.inbox = s.inbox

theorem ruleOf_keepsInputs (i : Instr) (d : BitVec i.requiredLen) (s : State) : KeepsInputs s (ruleOf i d s) := by
  rcases ruleOf_cases i d with ⟨n, out, -, h⟩ | ⟨n, decoder, -, -, h⟩ | ⟨-, h⟩ | ⟨-, f, h⟩ <;> rw [h]
  · simp [KeepsInputs]
  · simp [KeepsInputs]
  · simp [KeepsInputs]
  · by_cases hc : s.slcCnt.toNat < 3
    · simp [KeepsInputs, pushFragment_pending f hc]
    · simp [KeepsInputs, pushFragment_fourth f hc]

/-- Only SLC.RESET and SLC.PUSH change the assembler (10_state.md R28). -/
theorem ruleOf_keeps_assembler {i : Instr} (d : BitVec i.requiredLen) (s : State) (hReset : i.opcode ≠ 0xD0#8)
    (hPush : i.opcode ≠ 0xD1#8) : (ruleOf i d s).slcCnt = s.slcCnt ∧ (ruleOf i d s).slcBuf = s.slcBuf := by
  rcases ruleOf_cases i d with ⟨n, out, -, h⟩ | ⟨n, decoder, -, -, h⟩ | ⟨hop, -⟩ | ⟨hop, -⟩
  · simp [h]
  · simp [h]
  · exact absurd hop hReset
  · exact absurd hop hPush

/-- A rule completes with OK or SLC_PENDING (60_exceptions.md R336). -/
theorem ruleOf_status (i : Instr) (d : BitVec i.requiredLen) (s : State) :
    (ruleOf i d s).status = 0x01#8 ∨ (ruleOf i d s).status = 0x02#8 := by
  rcases ruleOf_cases i d with ⟨n, out, -, h⟩ | ⟨n, decoder, -, -, h⟩ | ⟨-, h⟩ | ⟨-, f, h⟩ <;> rw [h]
  · exact .inl rfl
  · exact .inl (resultDecoded_status ..)
  · exact .inl rfl
  · by_cases hc : s.slcCnt.toNat < 3
    · exact .inr (by rw [pushFragment_pending f hc]; rfl)
    · exact .inl (by rw [pushFragment_fourth f hc]; exact resultDecoded_status ..)

/-- A host write to CMD stores the word and changes neither DIN nor its marks (10_state.md R35). -/
theorem performWord_keepsInputs {w : Word} {s t : State} (h : performWord w s = .next t) :
    KeepsInputs { s with cmd := w } t := by
  rcases performWord_next h with ⟨st, -, rfl⟩ | ⟨i, -, rfl⟩
  · simp [KeepsInputs]
  · exact ruleOf_keepsInputs i _ _

end Sys2Proof.Machine
end

section
/-! The invariant of the block. Only the assembler and DIN carry over from the state before a command: the other clauses
speak of registers that every command writes. -/

namespace Sys2Proof.Machine

/-- SLC_CNT is 0..3, and the slots from it on are zero (10_state.md R28; 41_bptc.md R229). -/
def AssemblerTidy (s : State) : Prop :=
  s.slcCnt.toNat ≤ 3 ∧ ∀ p, 17 * s.slcCnt.toNat ≤ p → s.slcBuf.getMsbD p = false

/-- An unwritten DIN bit is stored as 0 (log 3). -/
def DinCanonical (s : State) : Prop :=
  ∀ p, s.dinWritten.getMsbD p = false → s.din.getMsbD p = false

/-- The invariant says nothing of CMD, the parameters and the accesses to come. -/
theorem State.Inv.of_same_registers {s : State} (h : s.Inv) (cmd : Word) (params : Params) (inbox : List HostAccess) :
    State.Inv { s with cmd := cmd, params := params, inbox := inbox } :=
  ⟨h.status_listed, h.slcCnt_le, h.slcBuf_free, h.outLen_le, h.dout_zero_above, h.record_bounds, h.zeroed_unless_ok,
    h.pending_holds, h.din_canonical⟩

theorem reset_inv : State.reset.Inv where
  status_listed := .inl rfl
  slcCnt_le := by decide
  slcBuf_free _ _ := BitVec.getMsbD_zero
  outLen_le := by decide
  dout_zero_above _ _ := BitVec.getMsbD_zero
  record_bounds := by decide
  zeroed_unless_ok _ := ⟨rfl, rfl, rfl, rfl, rfl⟩
  pending_holds h := absurd h (by decide)
  din_canonical _ _ := BitVec.getMsbD_zero

theorem resetBlock_inv (s : State) : (resetBlock s).Inv :=
  reset_inv.of_same_registers _ s.params s.inbox

theorem statusCode_listed (st : Status) : statusCode st = 0x00#8 ∨ statusCode st = 0x01#8 ∨ statusCode st = 0x02#8 ∨
    statusCode st = 0x80#8 ∨ statusCode st = 0x81#8 ∨ statusCode st = 0x82#8 := by
  cases st <;> decide

theorem statusCode_eq_pending {st : Status} : statusCode st = 0x02#8 ↔ st = .slcPending := by
  cases st <;> decide

/-- A status with zeroed results keeps the invariant; SLC_PENDING needs a fragment held. -/
theorem raise_inv {s : State} (st : Status) (ha : AssemblerTidy s) (hd : DinCanonical s)
    (hp : st = .slcPending → 1 ≤ s.slcCnt.toNat) : (raise st s).Inv where
  status_listed := statusCode_listed st
  slcCnt_le := ha.1
  slcBuf_free := ha.2
  outLen_le := Nat.zero_le _
  dout_zero_above _ _ := BitVec.getMsbD_zero
  record_bounds := ⟨Nat.le_refl _, Nat.zero_le _⟩
  zeroed_unless_ok _ := ⟨rfl, rfl, rfl, rfl, rfl⟩
  pending_holds h := hp (statusCode_eq_pending.mp h)
  din_canonical := hd

/-- A result of at most 196 bits with a bounded record keeps the invariant. -/
theorem result_inv {s : State} {n : Nat} (out : BitVec n) {fec : FecResult} (hn : n ≤ 196) (hfec : fec.Bounded)
    (ha : AssemblerTidy s) (hd : DinCanonical s) : (result out fec s).Inv := by
  obtain ⟨herr, hbits⟩ := hfec
  have toNat_small : ∀ m, m ≤ 196 → (BitVec.ofNat 16 m).toNat = m := fun m hm => by
    rw [BitVec.toNat_ofNat]; omega
  refine
    { status_listed := .inr (.inl rfl)
      slcCnt_le := ha.1
      slcBuf_free := ha.2
      outLen_le := ?_
      dout_zero_above := fun p hp => ?_
      record_bounds := ?_
      zeroed_unless_ok := fun h => absurd rfl h
      pending_holds := fun h => absurd h (by simp)
      din_canonical := hd }
  · simpa [toNat_small n hn] using hn
  · rw [result_outLen, toNat_small n hn] at hp
    simp [BitVec.getMsbD_of_ge out p hp]
  · rw [result_resErr, result_resBits, toNat_small _ hbits, toNat_small _ (Nat.le_trans herr hbits)]
    exact ⟨herr, hbits⟩

theorem resultDecoded_inv {s : State} {m n : Nat} (received : BitVec m) {decoded : BitVec n × FecResult} (hn : n ≤ 196)
    (hfec : decoded.2.Bounded) (ha : AssemblerTidy s) (hd : DinCanonical s) : (resultDecoded received decoded s).Inv := by
  obtain ⟨out, h⟩ := resultDecoded_is_result received decoded s
  exact h ▸ result_inv out hn hfec ha hd

/-- The cleared assembler is tidy (41_bptc.md R228). -/
theorem assemblerTidy_cleared (s : State) : AssemblerTidy { s with slcBuf := 0#68, slcCnt := 0#3 } :=
  ⟨(by decide : (0#3).toNat ≤ 3), fun _ _ => BitVec.getMsbD_zero⟩

theorem slcCnt_succ {c : BitVec 3} (h : c.toNat < 3) : (c + 1#3).toNat = c.toNat + 1 := by
  bv_omega

/-- A fragment stored in its slot leaves the slots after it zero (41_bptc.md R229). -/
theorem assemblerTidy_stored {s : State} (f : BitVec 17) (ha : AssemblerTidy s) (h : s.slcCnt.toNat < 3) :
    AssemblerTidy { s with slcBuf := storeFragment s.slcBuf s.slcCnt.toNat f, slcCnt := s.slcCnt + 1#3 } := by
  refine ⟨?_, fun p hp => ?_⟩
  · simp only [slcCnt_succ h]; omega
  · simp only [slcCnt_succ h] at hp
    have hout : ¬ (17 * s.slcCnt.toNat ≤ p ∧ p < 17 * s.slcCnt.toNat + 17) := by omega
    simp [storeFragment, hout, ha.2 p (by omega)]

/-- Whatever state a rule starts from, tidy in its assembler and DIN, it ends in the invariant. -/
theorem ruleOf_inv (i : Instr) (d : BitVec i.requiredLen) {s : State} (ha : AssemblerTidy s) (hd : DinCanonical s) :
    (ruleOf i d s).Inv := by
  rcases ruleOf_cases i d with ⟨n, out, hn, h⟩ | ⟨n, decoder, hn, hfec, h⟩ | ⟨-, h⟩ | ⟨-, f, h⟩ <;> rw [h]
  · exact result_inv out hn noFec_bounded ha hd
  · exact resultDecoded_inv d hn (hfec _) ha hd
  · exact result_inv 0#0 (Nat.zero_le _) noFec_bounded (assemblerTidy_cleared s) hd
  · by_cases hc : s.slcCnt.toNat < 3
    · rw [pushFragment_pending f hc]
      exact raise_inv _ (assemblerTidy_stored f ha hc) hd fun _ => by simp only [slcCnt_succ hc]; omega
    · rw [pushFragment_fourth f hc]
      exact resultDecoded_inv _ (by decide) (decodeParity_bounded _ _ _ _ _ _ (by decide)) (assemblerTidy_cleared s) hd

theorem performWord_inv {w : Word} {s t : State} (hs : s.Inv) (h : performWord w s = .next t) : t.Inv := by
  have ha : AssemblerTidy s := ⟨hs.slcCnt_le, hs.slcBuf_free⟩
  rcases performWord_next h with ⟨st, hst, rfl⟩ | ⟨i, -, rfl⟩
  · exact raise_inv st ha hs.din_canonical fun h => absurd h hst
  · exact ruleOf_inv i _ ha hs.din_canonical

theorem storeDin_inv {s : State} (mask value : Port) (hs : s.Inv) : (storeDin mask value s).Inv := by
  have hdin : DinCanonical (storeDin mask value s) := fun p hp => by
    obtain ⟨hmask, hold⟩ : mask.getMsbD p = false ∧ s.dinWritten.getMsbD p = false := by
      rwa [storeDin_dinWritten_getMsbD, Bool.or_eq_false_iff] at hp
    simpa [storeDin_din_getMsbD, hmask, -storeDin_din] using hs.din_canonical p hold
  exact ⟨hs.status_listed, hs.slcCnt_le, hs.slcBuf_free, hs.outLen_le, hs.dout_zero_above, hs.record_bounds,
    hs.zeroed_unless_ok, hs.pending_holds, hdin⟩

/-- Settles O14: of a step, each access keeps the invariant. -/
theorem everyStepKeepsTheInvariant : Obligations.EveryStepKeepsTheInvariant := by
  intro s t hs hstep
  rcases step_cases s with ⟨-, hwait⟩ | ⟨a, rest, hin, -⟩
  · rw [hwait] at hstep
    cases hstep
    exact hs
  · have hrest : State.Inv { s with inbox := rest } := hs.of_same_registers s.cmd s.params rest
    rcases step_next hin hstep with ⟨w, -, hw⟩ | ⟨mask, value, -, rfl⟩ | ⟨-, rfl⟩ | rfl
    · exact performWord_inv hrest hw
    · exact storeDin_inv mask value hrest
    · exact resetBlock_inv _
    · exact hrest

/-- Settles O13. -/
theorem resetMeetsTheInvariant : Obligations.ResetMeetsTheInvariant := reset_inv

end Sys2Proof.Machine
end

section
/-! A command reads its operand and nothing else: two states that agree on it answer alike. -/

namespace Sys2Proof.Machine

/-- The registers a command writes hold the same in both states. -/
def SameResults (t₁ t₂ : State) : Prop :=
  t₁.dout = t₂.dout ∧ t₁.outLen = t₂.outLen ∧ t₁.status = t₂.status ∧ t₁.resBits = t₂.resBits ∧
    t₁.resErr = t₂.resErr ∧ t₁.resUnc = t₂.resUnc ∧ t₁.slcCnt = t₂.slcCnt ∧ t₁.slcBuf = t₂.slcBuf

theorem writeResult_sameResults (dout : Port) (outLen : Nat) (fec : FecResult) (st : Status) {s₁ s₂ : State}
    (hcnt : s₁.slcCnt = s₂.slcCnt) (hbuf : s₁.slcBuf = s₂.slcBuf) :
    SameResults (writeResult dout outLen fec st s₁) (writeResult dout outLen fec st s₂) :=
  ⟨rfl, rfl, rfl, rfl, rfl, rfl, hcnt, hbuf⟩

/-- A free payload is a function of CMD and the received vector (log 7), so it agrees too. -/
theorem resultDecoded_sameResults {m n : Nat} (received : BitVec m) (decoded : BitVec n × FecResult) {s₁ s₂ : State}
    (hcmd : s₁.cmd = s₂.cmd) (hparams : s₁.params = s₂.params) (hcnt : s₁.slcCnt = s₂.slcCnt)
    (hbuf : s₁.slcBuf = s₂.slcBuf) :
    SameResults (resultDecoded received decoded s₁) (resultDecoded received decoded s₂) := by
  unfold resultDecoded
  rw [hcmd, hparams]
  split <;> exact writeResult_sameResults _ _ _ _ hcnt hbuf

/-- A rule on the same operand, from states with the same CMD, parameters and assembler, gives the same results. -/
theorem ruleOf_sameResults (i : Instr) (d : BitVec i.requiredLen) {s₁ s₂ : State} (hcmd : s₁.cmd = s₂.cmd)
    (hparams : s₁.params = s₂.params) (hcnt : s₁.slcCnt = s₂.slcCnt) (hbuf : s₁.slcBuf = s₂.slcBuf) :
    SameResults (ruleOf i d s₁) (ruleOf i d s₂) := by
  rcases ruleOf_cases i d with ⟨n, out, -, h⟩ | ⟨n, decoder, -, -, h⟩ | ⟨-, h⟩ | ⟨-, f, h⟩ <;> rw [h]
  · exact writeResult_sameResults _ _ _ _ hcnt hbuf
  · simp only [hparams]
    exact resultDecoded_sameResults d _ hcmd hparams hcnt hbuf
  · exact writeResult_sameResults _ _ _ _ rfl rfl
  · by_cases hc : s₂.slcCnt.toNat < 3
    · rw [pushFragment_pending f hc, pushFragment_pending f (hcnt ▸ hc), hcnt, hbuf]
      exact writeResult_sameResults _ _ _ _ rfl rfl
    · rw [pushFragment_fourth f hc, pushFragment_fourth f (hcnt ▸ hc), hcnt, hbuf, hparams]
      exact resultDecoded_sameResults _ _ hcmd rfl rfl rfl

theorem operand_congr {s₁ s₂ : State} {len : Nat} (h : ∀ j, j < len → s₁.din.getMsbD j = s₂.din.getMsbD j) :
    operand s₁ len = operand s₂ len :=
  eq_of_bits fun j hj => by simp [operand, hj, h j hj]

theorem firstUnwritten_congr {s₁ s₂ : State} {len : Nat}
    (h : ∀ j, j < len → s₁.dinWritten.getMsbD j = s₂.dinWritten.getMsbD j) :
    firstUnwritten s₁ len = firstUnwritten s₂ len :=
  List.find?_congr fun j hj => by rw [h j (List.mem_range.mp hj)]

theorem missingInput_congr {s₁ s₂ : State} {len : Nat} (hparams : s₁.params = s₂.params)
    (h : ∀ j, j < len → s₁.dinWritten.getMsbD j = s₂.dinWritten.getMsbD j) :
    missingInput s₁ len = missingInput s₂ len := by
  simp only [missingInput, hparams, firstUnwritten_congr h]

/-- Settles O11: the checks 2 and 3 read the command alone, check 4 and the rule the bits the two states share. -/
theorem outcomeDependsOnlyOnTheOperand : Obligations.OutcomeDependsOnlyOnTheOperand := by
  intro i s₁ s₂ hcmd hparams hcnt hbuf hbits
  cases hf : flagsReserved i.hasOdd i.flags with
  | true =>
    exact .inl ⟨_, _, exec_of_reservedFlags s₁ hf, exec_of_reservedFlags s₂ hf,
      writeResult_sameResults _ _ _ _ hcnt hbuf⟩
  | false =>
    cases hl : lengthWrong i.requiredLen i.length with
    | true =>
      exact .inl ⟨_, _, exec_of_lengthWrong s₁ hf hl, exec_of_lengthWrong s₂ hf hl,
        writeResult_sameResults _ _ _ _ hcnt hbuf⟩
    | false =>
      rw [lengthWrong_eq_false.mp hl] at hbits
      have hmissing : missingInput s₁ i.requiredLen = missingInput s₂ i.requiredLen :=
        missingInput_congr hparams fun j hj => (hbits j hj).1
      have hoperand : operand s₁ i.requiredLen = operand s₂ i.requiredLen :=
        operand_congr fun j hj => (hbits j hj).2
      cases hm : missingInput s₂ i.requiredLen with
      | some j =>
        exact .inr ⟨j, s₁, s₂, exec_of_missingInput hf hl (hmissing.trans hm), exec_of_missingInput hf hl hm⟩
      | none =>
        refine .inl ⟨_, _, exec_of_checks hf hl (hmissing.trans hm), exec_of_checks hf hl hm, ?_⟩
        rw [hoperand]
        exact ruleOf_sameResults i _ hcmd hparams hcnt hbuf

end Sys2Proof.Machine
end

section
/-! A host write to CMD: the order of its checks, the fault, the word it leaves, and what it runs. -/

namespace Sys2Proof.Machine

/-- Settles O5. -/
theorem stepRunsTheDecodedCommand : Obligations.StepRunsTheDecodedCommand := by
  intro s w rest i hin hd
  rw [step_of_pending hin]
  exact performWord_of_decode _ hd

theorem step_of_unlisted {s : State} {w : Word} {rest : List HostAccess} (hin : s.inbox = .writeCmd w :: rest)
    (hw : ¬ ListedOpc (wordOpc w)) : step s = .next (raise .illegalOpcode { s with cmd := w, inbox := rest }) := by
  rw [step_of_pending hin]
  exact performWord_of_unlisted _ hw

/-- Settles O6: with the row's command decoded, each clause is one of the four outcomes of `command`. -/
theorem checksDecideInOrder : Obligations.ChecksDecideInOrder := by
  intro s w rest hin
  refine ⟨fun hw => ⟨_, step_of_unlisted hin hw, rfl⟩, fun required out hrow => ?_⟩
  obtain ⟨i, hd, rfl⟩ := decode_of_mem_tableR71 hrow
  obtain ⟨hopc, hflg, hlen⟩ := decode_fields hd
  rw [stepRunsTheDecodedCommand s w rest i hin hd, ← hopc, ← hflg, ← hlen, ← flagsReserved_iff, Bool.not_eq_true]
  refine ⟨fun hf => ⟨_, exec_of_reservedFlags _ hf, rfl⟩, fun hf => ⟨fun hne => ?_, fun heq => ⟨fun hread => ?_, ?_⟩⟩⟩
  · exact ⟨_, exec_of_lengthWrong _ hf (by simpa [lengthWrong] using hne), rfl⟩
  · exact ⟨_, exec_of_checks hf (lengthWrong_eq_false.mpr heq) (missingInput_none.mpr hread), ruleOf_status i _ _⟩
  · intro j hj hstops hbit hbefore
    exact exec_of_missingInput hf (lengthWrong_eq_false.mpr heq) (missingInput_some.mpr ⟨hstops, hj, hbit, hbefore⟩)

/-- Settles O8. -/
theorem unwrittenInputChangesOnlyCmd : Obligations.UnwrittenInputChangesOnlyCmd := by
  intro s u w rest j hin hfault
  rw [step_of_pending hin] at hfault
  obtain ⟨hu, hm⟩ := performWord_fault hfault
  exact ⟨hu, missingInput_some.mp hm⟩

/-- Settles O19. -/
theorem cmdReadsBackTheLastWord : Obligations.CmdReadsBackTheLastWord := by
  intro s w rest hin
  rw [step_of_pending hin]
  refine ⟨fun t hnext => ?_, fun j u hfault => ?_⟩
  · obtain ⟨hcmd, -⟩ := performWord_keepsInputs hnext
    exact hcmd
  · obtain ⟨rfl, -⟩ := performWord_fault hfault
    rfl

end Sys2Proof.Machine
end

section
/-! What each access leaves unchanged. -/

namespace Sys2Proof.Machine

/-- A host write of a word that is neither SLC.RESET nor SLC.PUSH leaves the assembler, whatever its outcome. -/
theorem performWord_keeps_assembler {w : Word} {s t : State} (h : performWord w s = .next t)
    (hReset : wordOpc w ≠ 0xD0#8) (hPush : wordOpc w ≠ 0xD1#8) : t.slcCnt = s.slcCnt ∧ t.slcBuf = s.slcBuf := by
  rcases performWord_next h with ⟨st, -, rfl⟩ | ⟨i, hd, rfl⟩
  · exact ⟨rfl, rfl⟩
  · obtain ⟨hopc, -, -⟩ := decode_fields hd
    exact ruleOf_keeps_assembler _ _ (hopc ▸ hReset) (hopc ▸ hPush)

/-- Settles O15. -/
theorem onlyAssemblerCommandsChangeTheAssembler : Obligations.OnlyAssemblerCommandsChangeTheAssembler := by
  intro s t a rest hin hstep hreset hword
  rcases step_next hin hstep with ⟨w, hw, h⟩ | ⟨mask, value, -, rfl⟩ | ⟨ha, -⟩ | rfl
  · obtain ⟨hReset, hPush⟩ := hword w hw
    exact (performWord_keeps_assembler h hReset hPush :)
  · exact ⟨rfl, rfl⟩
  · exact absurd ha hreset
  · exact ⟨rfl, rfl⟩

/-- Settles O16. -/
theorem onlyDinWritesAndResetChangeDin : Obligations.OnlyDinWritesAndResetChangeDin := by
  intro s t a rest hin hstep hreset hdin
  rcases step_next hin hstep with ⟨w, -, h⟩ | ⟨mask, value, ha, -⟩ | ⟨ha, -⟩ | rfl
  · obtain ⟨-, hd, hwritten, -⟩ := performWord_keepsInputs h
    exact ⟨hd, hwritten⟩
  · exact absurd ha (hdin mask value)
  · exact absurd ha hreset
  · exact ⟨rfl, rfl⟩

theorem hostRead_storeDin (mask value : Port) (s : State) (r : ResultReg) :
    hostRead (storeDin mask value s) (.result r) = hostRead s (.result r) := by
  cases r <;> rfl

theorem hostRead_with_inbox (s : State) (inbox : List HostAccess) (r : ResultReg) :
    hostRead { s with inbox := inbox } (.result r) = hostRead s (.result r) := by
  cases r <;> rfl

/-- Settles O54. -/
theorem resultsStayUntilTheNextCommand : Obligations.ResultsStayUntilTheNextCommand := by
  intro s t a rest hin hstep hreset hcmd
  rcases step_next hin hstep with ⟨w, ha, -⟩ | ⟨mask, value, -, rfl⟩ | ⟨ha, -⟩ | rfl
  · exact absurd ha (hcmd w)
  · exact ⟨rfl, fun r => (hostRead_storeDin ..).trans (hostRead_with_inbox s rest r)⟩
  · exact absurd ha hreset
  · exact ⟨rfl, hostRead_with_inbox s rest⟩

end Sys2Proof.Machine
end

section
/-! Host writes to DIN, the platform's reset, and host reads. -/

namespace Sys2Proof.Machine

theorem step_writeDin {s : State} {mask value : Port} {rest : List HostAccess}
    (hin : s.inbox = .writeDin mask value :: rest) : step s = .next (storeDin mask value { s with inbox := rest }) :=
  step_of_pending hin

/-- The bits of DIN and of its marks after a host write of a range. -/
theorem storeDin_range_getMsbD {first n : Nat} (v : BitVec n) (s : State) (hn : first + n ≤ 256) :
    (∀ i, i < n →
      (storeDin (dinMask first n) (setSlice 0#256 first v) s).din.getMsbD (first + i) = v.getMsbD i ∧
      (storeDin (dinMask first n) (setSlice 0#256 first v) s).dinWritten.getMsbD (first + i) = true) ∧
    ∀ j, j < first ∨ first + n ≤ j →
      (storeDin (dinMask first n) (setSlice 0#256 first v) s).din.getMsbD j = s.din.getMsbD j ∧
      (storeDin (dinMask first n) (setSlice 0#256 first v) s).dinWritten.getMsbD j = s.dinWritten.getMsbD j := by
  refine ⟨fun i hi => ?_, fun j hj => ?_⟩ <;> rw [storeDin_din_getMsbD, storeDin_dinWritten_getMsbD]
  · have hlt : first + i < 256 := by omega
    simp [hlt, hi]
  · have hout : ¬ (j < 256 ∧ first ≤ j ∧ j < first + n) := by omega
    have hmask : (dinMask first n).getMsbD j = false := by simpa using hout
    simp [hmask]

/-- Settles O52. -/
theorem dinWriteStoresTheSelectedBits : Obligations.DinWriteStoresTheSelectedBits := by
  refine ⟨fun mask value s rest hin => ?_, fun first n v s rest hn hin => ?_⟩
  · exact ⟨_, step_writeDin hin,
      fun j => ⟨storeDin_din_getMsbD mask value _ j, storeDin_dinWritten_getMsbD mask value _ j⟩, rfl⟩
  · obtain ⟨hin_range, hout_range⟩ := storeDin_range_getMsbD v { s with inbox := rest } hn
    exact ⟨_, step_writeDin hin, hin_range, hout_range, rfl⟩

/-- Settles O17: the range that starts at DIN[0]. -/
theorem dinWriteProvidesTheOperand : Obligations.DinWriteProvidesTheOperand := by
  intro n v s rest hn hin
  obtain ⟨t, hstep, hstored, hrest, ht⟩ := dinWriteStoresTheSelectedBits.2 0 n v s rest (by omega) hin
  simp only [Nat.zero_add] at hstored hrest
  have hwritten : OperandWritten t n := fun i hi => (hstored i hi).2
  exact ⟨t, hstep, hwritten, ⟨.inr hwritten, fun i hi => (hstored i hi).1⟩, fun j hj => hrest j (.inr hj), ht⟩

/-- Settles O12. -/
theorem resetSetsEveryRegister : Obligations.ResetSetsEveryRegister := by
  intro s rest hin
  exact ⟨resetBlock { s with inbox := rest }, step_of_pending hin, rfl, rfl, rfl, rfl, rfl, rfl, rfl, rfl, rfl, rfl, rfl,
    rfl⟩

/-- Settles O53: every read but that of DIN is a field of the state. -/
theorem hostReadsReturnTheRegisters : Obligations.HostReadsReturnTheRegisters := by
  refine ⟨rfl, fun s => ⟨rfl, rfl, rfl, rfl, rfl, rfl, ?_, rfl, fun i hi hread => ?_⟩⟩
  · cases h : s.resUnc <;> simp [hostRead, h]
  · change (ofBits 256 (dinBit s)).getMsbD i = s.din.getMsbD i
    simp [hi, dinBit_held hread]

end Sys2Proof.Machine
end

section
/-! Every step has an outcome of the spec, and the accesses that only take themselves off the list. -/

namespace Sys2Proof.Machine

/-- Each of the checks of 60_exceptions.md R336, and the rule behind them, gives every command an outcome. -/
theorem exec_ne_refused (i : Instr) (s : State) (r : Refusal) : exec i s ≠ .refused r := by
  rw [exec_eq_command]
  rcases command_cases i.hasOdd i.requiredLen i.flags i.length (ruleOf i) s with
    ⟨-, h⟩ | ⟨-, -, h⟩ | ⟨-, -, j, -, h⟩ | ⟨-, -, -, h⟩ <;> simp [h]

/-- A word with a reserved operation code has its status too (60_exceptions.md R332). -/
theorem performWord_ne_refused (w : Word) (s : State) (r : Refusal) : performWord w s ≠ .refused r := by
  rcases performWord_cases w s with ⟨i, -, h⟩ | ⟨opc, -, h⟩ <;> rw [h]
  · exact exec_ne_refused i _ r
  · simp

theorem performAccess_ne_refused (a : HostAccess) (s : State) (r : Refusal) : performAccess a s ≠ .refused r := by
  rcases performAccess_cases a s with ⟨w, -, h⟩ | ⟨mask, value, -, h⟩ | ⟨-, h⟩ | ⟨-, h⟩ <;> rw [h]
  · exact performWord_ne_refused w s r
  all_goals simp

/-- Settles O9: a step waits or performs one access. -/
theorem noStepIsRefused : Obligations.NoStepIsRefused := by
  intro s r
  rcases step_cases s with ⟨-, h⟩ | ⟨a, rest, -, h⟩ <;> rw [h]
  · simp
  · exact performAccess_ne_refused a _ r

theorem step_of_empty {s : State} (hin : s.inbox = []) : step s = .next s := by
  rcases step_cases s with ⟨-, h⟩ | ⟨a, rest, hpending, -⟩
  · exact h
  · simp [hin] at hpending

/-- Settles O18. -/
theorem readsAndIgnoredWritesChangeNothing : Obligations.ReadsAndIgnoredWritesChangeNothing :=
  ⟨fun _ _ _ hin => step_of_pending hin, fun _ _ _ _ hin => step_of_pending hin, fun _ => step_of_empty⟩

end Sys2Proof.Machine
end

section
/-! The encoder against the decoder (30_encoding.md R70, R76, R79): each undoes the other, and what neither reaches. -/

namespace Sys2Proof.Machine

/-- A word is its three fields, OPC first (30_encoding.md R70). -/
theorem append_wordFields (w : Word) : wordOpc w ++ wordFlags w ++ wordLen w = w := by
  unfold wordOpc wordFlags wordLen
  rw [BitVec.extractLsb'_append_extractLsb'_eq_extractLsb' (by decide),
    BitVec.extractLsb'_append_extractLsb'_eq_extractLsb' (by decide)]
  exact BitVec.extractLsb'_eq_self

/-- The only two spellings the decoder does not give, those of the pseudo-command rows (log 8). -/
theorem canonical_eq_false {i : Instr} :
    i.canonical = false ↔ i = .sbEnc 1#8 11#16 ∨ i = .sbDec 1#8 32#16 := by
  cases i <;> simp [Instr.canonical]

/-- The row of its OPC gives a command back from its own fields (30_encoding.md R76). -/
theorem decodeOpc_of_canonical {i : Instr} (hi : i.canonical = true) :
    decodeOpc i.opcode i.flags i.length = some i := by
  cases i with
  | sbEnc flg len | sbDec flg len => exact congrArg some (if_neg (ne_true_of_eq_false ((Bool.not_eq_true' _).mp hi)))
  | _ => rfl

/-- The words of those two spellings decode to the pseudo-command rows (30_encoding.md R80), so they are never decoded. -/
theorem canonical_of_decodeOpc {opc flg : BitVec 8} {len : BitVec 16} {i : Instr} (h : decodeOpc opc flg len = some i) :
    i.canonical = true := by
  obtain ⟨rfl, rfl, rfl⟩ := decodeOpc_fields h
  rw [← Bool.not_eq_false, canonical_eq_false]
  rintro (rfl | rfl)
  · have hrc : decodeOpc 0xA6#8 1#8 11#16 = some .sbEncRc := rfl
    cases hrc.symm.trans h
  · have hrc : decodeOpc 0xA7#8 1#8 32#16 = some .sbDecRc := rfl
    cases hrc.symm.trans h

/-- Settles O1: the fields of the encoded word are the command's own, and the row of its OPC gives the command back. -/
theorem decodeOfEncodeIsTheCommand : Obligations.DecodeOfEncodeIsTheCommand := by
  intro i hi
  obtain ⟨hopc, hflg, hlen⟩ := Sys2Proof.Laws.WordFields.of_encode i
  rw [decode_ok_iff, hopc, hflg, hlen]
  exact decodeOpc_of_canonical hi

/-- Settles O2: the encoded word and the decoded one have the same three fields. -/
theorem encodeOfDecodeIsTheWord : Obligations.EncodeOfDecodeIsTheWord := by
  intro w i hd
  refine ⟨?_, canonical_of_decodeOpc (decode_ok_iff.mp hd)⟩
  obtain ⟨hopc, hflg, hlen⟩ := decode_fields hd
  obtain ⟨hopc', hflg', hlen'⟩ := Sys2Proof.Laws.WordFields.of_encode i
  rw [← append_wordFields (encode i), hopc', hflg', hlen', hopc, hflg, hlen, append_wordFields]

/-- A word decodes to a command or is rejected by its own OPC (30_encoding.md R77). -/
theorem decode_cases (w : Word) :
    (∃ i, decode w = .ok i) ∨ decode w = .error (.illegalOpcode (wordOpc w)) := by
  cases h : decodeOpc (wordOpc w) (wordFlags w) (wordLen w) with
  | some i => exact .inl ⟨i, decode_ok_iff.mpr h⟩
  | none => exact .inr (by simp [decode, h])

/-- Settles O3: the words that decode are those with a row. -/
theorem reservedOpcodesAreRejected : Obligations.ReservedOpcodesAreRejected := by
  intro w
  constructor
  · rintro hd ⟨required, out, hrow⟩
    obtain ⟨i, hi, -⟩ := decode_of_mem_tableR71 hrow
    cases hi.symm.trans hd
  · intro hunlisted
    rcases decode_cases w with ⟨i, hi⟩ | hd
    · exact absurd (listedOpc_of_decode hi) hunlisted
    · exact hd

/-- Settles O4: each printed word is the one its command is encoded as. -/
theorem printedWordsDecode : Obligations.PrintedWordsDecode :=
  have printed := decodeOfEncodeIsTheCommand
  ⟨printed (.ham743Par 0#8 4#16) rfl, printed (.gol2087Dec 0#8 20#16) rfl, printed (.qr1676Enc 0#8 7#16) rfl,
    printed (.bptc196Dec 0#8 196#16) rfl, printed .sbEncRc rfl, printed (.sbDec 0#8 32#16) rfl,
    printed (.trl34Enc 0#8 144#16) rfl, printed (.rs129Corr 0#8 120#16) rfl, printed (.slcPush 0#8 17#16) rfl,
    printed (.ham743Enc 1#8 5#16) rfl⟩

/-- Settles O35. -/
theorem reverseChannelFormsAreOdd : Obligations.ReverseChannelFormsAreOdd := fun _ => ⟨rfl, rfl⟩

end Sys2Proof.Machine
end

section
/-! Legal commands (30_encoding.md R71): what they answer, and the width of their result. -/

namespace Sys2Proof.Machine

/-- No OPC has two rows in R71. -/
theorem tableR71_unique {opc : BitVec 8} {m n a b : Nat} (h : (opc, m, a) ∈ tableR71) (h' : (opc, n, b) ∈ tableR71) :
    m = n ∧ a = b := by
  have nodup : (tableR71.map Prod.fst).Nodup := by decide
  simpa using List.inj_on_of_nodup_map nodup h h' rfl

/-- No OUT of R71 exceeds 196 (30_encoding.md R73). -/
theorem tableR71_out_le {opc : BitVec 8} {required out : Nat} (h : (opc, required, out) ∈ tableR71) : out ≤ 196 :=
  (by decide : ∀ row ∈ tableR71, row.2.2 ≤ 196) _ h

/-- A push that is not the fourth is pending, with no result (41_bptc.md R229). -/
theorem ruleOf_pending {i : Instr} (d : BitVec i.requiredLen) {s : State} (hPush : i.opcode = 0xD1#8)
    (hcnt : s.slcCnt.toNat < 3) : ∃ s', ruleOf i d s = raise .slcPending s' := by
  cases i with
  | slcPush => exact ⟨_, pushFragment_pending d hcnt⟩
  | _ => simp [Instr.opcode] at hPush

/-- Every other command completes with OK, and its result is as wide as the OUT of its row. -/
theorem ruleOf_output {i : Instr} (d : BitVec i.requiredLen) {s : State}
    (hdone : ¬ (i.opcode = 0xD1#8 ∧ s.slcCnt.toNat < 3)) :
    ∃ n, (ruleOf i d s).outLen = BitVec.ofNat 16 n ∧ (i.opcode, i.requiredLen, n) ∈ tableR71 ∧
      (ruleOf i d s).status = 0x01#8 := by
  cases i with
  | ham743Dec | ham1393Dec | ham15113Dec | ham16114Dec | ham17123Dec | gol2087Dec | gol23127Dec | gol24128Dec | qr1676Dec
  | bptc196Dec | cachDec | elcDec | sbDec | sbDecRc | trl34Dec | rs129Corr =>
    exact ⟨_, resultDecoded_outLen .., of_decide_eq_true rfl, resultDecoded_status ..⟩
  | slcPush =>
    have hfourth := pushFragment_fourth d fun hcnt => hdone ⟨rfl, hcnt⟩
    change ∃ n, (pushFragment d s).outLen = _ ∧ _ ∧ (pushFragment d s).status = _
    rw [hfourth]
    exact ⟨_, resultDecoded_outLen .., of_decide_eq_true rfl, resultDecoded_status ..⟩
  | _ => exact ⟨_, resultPlain_outLen .., of_decide_eq_true rfl, resultPlain_status ..⟩

/-- STATUS and OUT_LEN of a rule, by the row of its command. -/
theorem ruleOf_completion {i : Instr} {required out : Nat} (hrow : (i.opcode, required, out) ∈ tableR71)
    (d : BitVec i.requiredLen) (s : State) :
    if i.opcode = 0xD1#8 ∧ s.slcCnt.toNat < 3 then (ruleOf i d s).status = 0x02#8 ∧ (ruleOf i d s).outLen.toNat = 0
    else (ruleOf i d s).status = 0x01#8 ∧ (ruleOf i d s).outLen.toNat = out := by
  split
  · next hpending =>
    obtain ⟨s', h⟩ := ruleOf_pending d hpending.1 hpending.2
    simp [h, statusCode]
  · next hdone =>
    obtain ⟨n, hlen, hn, hstatus⟩ := ruleOf_output d hdone
    obtain ⟨-, rfl⟩ := tableR71_unique hrow hn
    have hout := tableR71_out_le hrow
    refine ⟨hstatus, ?_⟩
    rw [hlen, BitVec.toNat_ofNat]
    omega

theorem result_zero_above {n : Nat} (out : BitVec n) (fec : FecResult) (s : State) (hn : n ≤ 196) {j : Nat}
    (hj : (result out fec s).outLen.toNat ≤ j) : (result out fec s).dout.getMsbD j = false := by
  rw [result_outLen, BitVec.toNat_ofNat] at hj
  simp [BitVec.getMsbD_of_ge out j (by omega)]

theorem resultDecoded_zero_above {m n : Nat} (received : BitVec m) (decoded : BitVec n × FecResult) (s : State)
    (hn : n ≤ 196) {j : Nat} (hj : (resultDecoded received decoded s).outLen.toNat ≤ j) :
    (resultDecoded received decoded s).dout.getMsbD j = false := by
  obtain ⟨out, h⟩ := resultDecoded_is_result received decoded s
  rw [h] at hj ⊢
  exact result_zero_above out _ s hn hj

/-- DOUT is zero above OUT_LEN after every rule (10_state.md R25). -/
theorem ruleOf_zero_above (i : Instr) (d : BitVec i.requiredLen) (s : State) (j : Nat)
    (hj : (ruleOf i d s).outLen.toNat ≤ j) : (ruleOf i d s).dout.getMsbD j = false := by
  rcases ruleOf_cases i d with ⟨n, out, hn, h⟩ | ⟨n, decoder, hn, -, h⟩ | ⟨-, h⟩ | ⟨-, f, h⟩ <;> rw [h] at hj ⊢
  · exact result_zero_above out noFec s hn hj
  · exact resultDecoded_zero_above d _ s hn hj
  · exact result_zero_above 0#0 noFec _ (Nat.zero_le _) hj
  · by_cases hcnt : s.slcCnt.toNat < 3
    · simp [pushFragment_pending f hcnt]
    · rw [pushFragment_fourth f hcnt] at hj ⊢
      exact resultDecoded_zero_above _ _ _ (by decide) hj

/-- Settles O10: with every check passed the command performs its rule. -/
theorem legalCommandCompletes : Obligations.LegalCommandCompletes := by
  intro i s required out hrow hflags hlen hread
  obtain ⟨out', hrow'⟩ := mem_keysR71.mp (opcode_mem_keysR71 i)
  obtain ⟨rfl, -⟩ := tableR71_unique hrow' hrow
  have hf : flagsReserved i.hasOdd i.flags = false := by
    rwa [← Bool.not_eq_true, flagsReserved_iff]
  obtain ⟨hcmd, hdin, hwritten, hparams, hinbox⟩ := ruleOf_keepsInputs i (operand s i.requiredLen) s
  exact ⟨_, exec_of_checks hf (lengthWrong_eq_false.mpr hlen) (missingInput_none.mpr hread), ruleOf_completion hrow _ s,
    ruleOf_zero_above i _ s, hcmd, hdin, hwritten, hparams, hinbox, ruleOf_keeps_assembler _ s⟩

end Sys2Proof.Machine
end

section
/-! A Short-LC message (30_encoding.md R80; 41_bptc.md R217, R229): SLC.RESET and four pushes, run from the pending
accesses. -/

namespace Sys2Proof.Machine

/-- A legal command whose operand holds `v` performs its rule on `v`. -/
theorem exec_of_holdsOperand {i : Instr} {s : State} {v : BitVec i.requiredLen} (hv : HoldsOperand s v)
    (hf : flagsReserved i.hasOdd i.flags = false) (hl : lengthWrong i.requiredLen i.length = false) :
    exec i s = .next (ruleOf i v s) := by
  obtain ⟨hread, hbits⟩ := hv
  have hoperand : operand s i.requiredLen = v := eq_of_bits fun j hj => by simp [operand, hj, hbits j hj]
  rw [exec_of_checks hf hl (missingInput_none.mpr hread), hoperand]

/-- A decode's payload is the decoded one when the parameters say so (60_exceptions.md R338). -/
theorem resultDecoded_of_asDecided {m n : Nat} (received : BitVec m) (decoded : BitVec n × FecResult) {s : State}
    (h : s.params.bestEffort = .asDecided) : resultDecoded received decoded s = result decoded.1 decoded.2 s := by
  rcases resultDecoded_cases received decoded s with ⟨-, hr⟩ | ⟨-, hany, -⟩
  · exact hr
  · simp [h] at hany

/-- A run of any machine performs a step that answers a next state, then the rest. -/
theorem run_of_step {M : Host.Core} {s t : M.State} (h : M.step s = .next t) (k : Nat) : M.run (k + 1) s = M.run k t := by
  rw [Host.Core.run, h]

/-- The assembler of `s` holds `c` fragments in `buf`; the parameters are `p`, and the accesses `todo` are pending. -/
def Assembling (s : State) (p : Params) (buf : BitVec 68) (c : BitVec 3) (todo : List HostAccess) : Prop :=
  s.params = p ∧ s.slcBuf = buf ∧ s.slcCnt = c ∧ s.inbox = todo

/-- SLC.RESET from any state empties the assembler (41_bptc.md R228). -/
theorem run_slcReset {s : State} {todo : List HostAccess} (hin : s.inbox = .writeCmd 0xD0000000#32 :: todo) (k : Nat) :
    ∃ t, Assembling t s.params 0#68 0#3 todo ∧ Host.Core.run core (k + 1) s = Host.Core.run core k t := by
  have hstep := stepRunsTheDecodedCommand s _ todo (.slcReset 0#8 0#16) hin rfl
  have hempty : HoldsOperand { s with cmd := 0xD0000000#32, inbox := todo } 0#0 :=
    ⟨.inr fun _ hi => absurd hi (Nat.not_lt_zero _), fun _ hi => absurd hi (Nat.not_lt_zero _)⟩
  rw [exec_of_holdsOperand hempty rfl rfl] at hstep
  refine ⟨_, ?_, run_of_step (M := core) hstep k⟩
  exact ⟨rfl, rfl, rfl, rfl⟩

/-- The host writes a fragment to DIN and SLC.PUSH to CMD: the push performs its rule on that fragment. -/
theorem run_slcPush {s : State} {p : Params} {buf : BitVec 68} {c : BitVec 3} {f : BitVec 17} {todo : List HostAccess}
    (hs : Assembling s p buf c (dinAccess 0 f :: .writeCmd 0xD1000011#32 :: todo)) (k : Nat) :
    ∃ u, Assembling u p buf c todo ∧ Host.Core.run core (k + 2) s = Host.Core.run core k (pushFragment f u) := by
  obtain ⟨hp, hbuf, hc, hin⟩ := hs
  obtain ⟨t, hload, -, hv, -, ht⟩ := dinWriteProvidesTheOperand 17 f s _ (by decide) hin
  have hpending : t.inbox = .writeCmd 0xD1000011#32 :: todo := by rw [ht]
  have hstep := stepRunsTheDecodedCommand t _ todo (.slcPush 0#8 17#16) hpending rfl
  have hv' : HoldsOperand { t with cmd := 0xD1000011#32, inbox := todo } f := hv
  rw [exec_of_holdsOperand hv' rfl rfl] at hstep
  refine ⟨{ t with cmd := 0xD1000011#32, inbox := todo }, ?_,
    (run_of_step (M := core) hload _).trans (run_of_step (M := core) hstep k)⟩
  rw [ht]
  exact ⟨hp, hbuf, hc, rfl⟩

/-- A push that is not the fourth stores its fragment in the next slot and counts it. -/
theorem run_slcPush_pending {s : State} {p : Params} {buf : BitVec 68} {c : BitVec 3} {f : BitVec 17}
    {todo : List HostAccess} (hs : Assembling s p buf c (dinAccess 0 f :: .writeCmd 0xD1000011#32 :: todo))
    (hcnt : c.toNat < 3) (k : Nat) :
    ∃ t, Assembling t p (storeFragment buf c.toNat f) (c + 1#3) todo ∧
      Host.Core.run core (k + 2) s = Host.Core.run core k t := by
  obtain ⟨u, ⟨rfl, rfl, rfl, rfl⟩, hrun⟩ := run_slcPush hs k
  rw [pushFragment_pending f hcnt] at hrun
  refine ⟨_, ?_, hrun⟩
  exact ⟨rfl, rfl, rfl, rfl⟩

/-- The four fragments, each in its slot, are the message (41_bptc.md R217). -/
theorem storeFragment_four (f₀ f₁ f₂ f₃ : BitVec 17) :
    storeFragment (storeFragment (storeFragment (storeFragment 0#68 0 f₀) 1 f₁) 2 f₂) 3 f₃ = f₀ ++ f₁ ++ f₂ ++ f₃ :=
  eq_of_bits fun i hi => by
    simp only [storeFragment, getMsbD_setSlice, BitVec.getMsbD_append, hi, decide_true, Bool.true_and]
    by_cases h₃ : 51 ≤ i
    · simp [h₃]
    by_cases h₂ : 34 ≤ i
    · simp [h₃, h₂, Nat.not_le.mp h₃]
    by_cases h₁ : 17 ≤ i
    · simp [h₃, h₂, h₁, Nat.not_le.mp h₂]
    · simp [h₃, h₂, h₁, Nat.not_le.mp h₁]

/-- The message assembled, the fourth push decodes it (41_bptc.md R229). -/
theorem run_shortLcMessage {s : State} {f₀ f₁ f₂ f₃ : BitVec 17}
    (hin : s.inbox = [.writeCmd 0xD0000000#32, dinAccess 0 f₀, .writeCmd 0xD1000011#32, dinAccess 0 f₁,
      .writeCmd 0xD1000011#32, dinAccess 0 f₂, .writeCmd 0xD1000011#32, dinAccess 0 f₃, .writeCmd 0xD1000011#32]) :
    ∃ u : State, u.slcCnt = 0#3 ∧ u.slcBuf = 0#68 ∧ u.params = s.params ∧ Host.Core.run core 9 s = .next
      (resultDecoded (f₀ ++ f₁ ++ f₂ ++ f₃) (decodeCach s.params.rowPolicy (f₀ ++ f₁ ++ f₂ ++ f₃)) u) := by
  obtain ⟨t₀, h₀, hrun₀⟩ := run_slcReset hin 8
  obtain ⟨t₁, h₁, hrun₁⟩ := run_slcPush_pending h₀ (by decide) 6
  obtain ⟨t₂, h₂, hrun₂⟩ := run_slcPush_pending h₁ (by decide) 4
  obtain ⟨t₃, h₃, hrun₃⟩ := run_slcPush_pending h₂ (by decide) 2
  obtain ⟨u, ⟨hp, hbuf, hcnt, -⟩, hrun₄⟩ := run_slcPush h₃ 0
  have hmsg : storeFragment u.slcBuf u.slcCnt.toNat f₃ = f₀ ++ f₁ ++ f₂ ++ f₃ := by
    rw [hbuf, hcnt]
    exact storeFragment_four f₀ f₁ f₂ f₃
  rw [pushFragment_fourth f₃ (by rw [hcnt]; decide), hmsg, hp] at hrun₄
  refine ⟨_, ?_, ?_, ?_, (((hrun₀.trans hrun₁).trans hrun₂).trans hrun₃).trans hrun₄⟩ <;> rfl

/-- Settles O38: both decode the same vector under the same parameters. -/
theorem fourPushesDecodeAsCach : Obligations.FourPushesDecodeAsCach := by
  intro s s' f₀ f₁ f₂ f₃ hin hparams hmessage
  obtain ⟨u, hcnt, hbuf, hu, hrun⟩ := run_shortLcMessage hin
  have hcach : exec (.cachDec 0#8 68#16) s' = .next
      (resultDecoded (f₀ ++ f₁ ++ f₂ ++ f₃) (decodeCach s.params.rowPolicy (f₀ ++ f₁ ++ f₂ ++ f₃)) s') := by
    rw [← hparams]
    exact exec_of_holdsOperand (i := .cachDec 0#8 68#16) hmessage rfl rfl
  refine ⟨_, _, hrun, hcach, fun hdecided => ?_, ?_⟩
  · rw [resultDecoded_of_asDecided _ _ (hu ▸ hdecided), resultDecoded_of_asDecided _ _ (hparams ▸ hdecided)]
    rfl
  · simp [hcnt, hbuf]

end Sys2Proof.Machine
end

section
/-! Weights (00_scope.md R10): the parity of a weight is linear, and what one wrong bit does to it. -/

namespace Sys2Proof.Machine

/-- The parity of the number of set bits is additive. -/
theorem bodd_countP_xor {α : Type} (l : List α) (f g : α → Bool) :
    (l.countP fun i => f i ^^ g i).bodd = ((l.countP f).bodd ^^ (l.countP g).bodd) := by
  induction l with
  | nil => simp
  | cons i l ih =>
    simp only [List.countP_cons, Nat.bodd_add, ih]
    cases f i <;> cases g i <;> simp

/-- XOR over a list of bits is the parity of the number of ones. -/
theorem foldl_xor_eq_bodd (l : List Bool) (b : Bool) : l.foldl xor b = (b ^^ (l.countP id).bodd) := by
  induction l generalizing b with
  | nil => simp
  | cons x l ih =>
    simp only [List.foldl_cons, ih, List.countP_cons, Nat.bodd_add]
    cases x <;> simp

theorem bodd_weight_xor {n : Nat} (a b : BitVec n) : (weight (a ^^^ b)).bodd = ((weight a).bodd ^^ (weight b).bodd) := by
  simp only [weight, BitVec.getMsbD_xor]
  exact bodd_countP_xor _ _ _

/-- The places of the set bits. -/
def support {n : Nat} (b : BitVec n) : Finset Nat := (Finset.range n).filter fun i => b.getMsbD i = true

@[simp] theorem mem_support {n : Nat} {b : BitVec n} {i : Nat} : i ∈ support b ↔ b.getMsbD i = true := by
  simp only [support, Finset.mem_filter, Finset.mem_range, and_iff_right_iff_imp]
  intro h
  by_contra hi
  simp [BitVec.getMsbD_of_ge b i (Nat.le_of_not_lt hi)] at h

theorem weight_eq_card {n : Nat} (b : BitVec n) : weight b = (support b).card := by
  simp [weight, support, Finset.card, Finset.range, Multiset.range, List.countP_eq_length_filter]

/-- A vector with no set bit from place `p` on weighs at most `p`. -/
theorem weight_le_of_zero_from {n p : Nat} {b : BitVec n} (h : ∀ i, p ≤ i → b.getMsbD i = false) : weight b ≤ p := by
  rw [weight_eq_card]
  have hsub : support b ⊆ Finset.range p := fun i hi => by
    by_contra hp
    simp [h i (by simpa using hp)] at hi
  simpa using Finset.card_le_card hsub

@[simp] theorem getMsbD_unitAt (n j i : Nat) : (unitAt n j).getMsbD i = (decide (i < n) && decide (i = j)) := by
  rw [unitAt, getMsbD_ofBits]
  rfl

/-- Clearing a set bit takes one off the weight. -/
theorem weight_xor_unitAt_of_set {n j : Nat} {b : BitVec n} (h : b.getMsbD j = true) :
    weight (b ^^^ unitAt n j) + 1 = weight b := by
  have hj : j < n := by
    by_contra hj
    simp [BitVec.getMsbD_of_ge b j (Nat.le_of_not_lt hj)] at h
  have hset : support (b ^^^ unitAt n j) = (support b).erase j := by
    ext i
    by_cases hij : i = j
    · simp [hij, h, hj]
    · simp [hij]
  rw [weight_eq_card, weight_eq_card, hset, Finset.card_erase_add_one (mem_support.mpr h)]

/-- Changing one bit adds at most one to the weight. -/
theorem weight_xor_unitAt_le {n : Nat} (b : BitVec n) (j : Nat) : weight (b ^^^ unitAt n j) ≤ weight b + 1 := by
  have hsub : support (b ^^^ unitAt n j) ⊆ insert j (support b) := fun i hi => by
    by_cases hij : i = j
    · simp [hij]
    · simpa [hij] using hi
  rw [weight_eq_card, weight_eq_card]
  exact (Finset.card_le_card hsub).trans (Finset.card_insert_le j _)

/-- The first bit of `cons b e` is `b`, and those of `e` follow. -/
theorem getMsbD_cons_zero {n : Nat} (b : Bool) (e : BitVec n) : (BitVec.cons b e).getMsbD 0 = b :=
  BitVec.msb_cons

theorem getMsbD_cons_succ {n : Nat} (b : Bool) (e : BitVec n) (i : Nat) :
    (BitVec.cons b e).getMsbD (i + 1) = e.getMsbD i := by
  by_cases hi : i < n
  · have hne : ¬ n - 1 - i = n := by omega
    have hsub : n - (i + 1) = n - 1 - i := by omega
    simp [BitVec.getMsbD_eq_getLsbD, BitVec.getLsbD_cons, hi, hne, hsub]
  · simp [BitVec.getMsbD_of_ge, Nat.le_of_not_lt hi]

theorem weight_cons {n : Nat} (b : Bool) (e : BitVec n) : weight (BitVec.cons b e) = weight e + b.toNat := by
  have htail : (fun i => (BitVec.cons b e).getMsbD i) ∘ Nat.succ = fun i => e.getMsbD i :=
    funext (getMsbD_cons_succ b e)
  rw [weight, List.range_succ_eq_map, List.countP_cons, List.countP_map, htail, getMsbD_cons_zero]
  cases b <;> rfl

end Sys2Proof.Machine
end

section
/-! Error patterns and their syndromes (40_block_codes.md R105): the patterns of a weight are what their name says, and their
syndromes are the XORs of as many syndromes of single wrong bits. -/

namespace Sys2Proof.Machine

theorem cons_eq_cons {n : Nat} {a b : Bool} {x y : BitVec n} : BitVec.cons a x = BitVec.cons b y ↔ a = b ∧ x = y := by
  refine ⟨fun h => ⟨?_, eq_of_bits fun i _ => ?_⟩, fun ⟨ha, hx⟩ => ha ▸ hx ▸ rfl⟩
  · rw [← getMsbD_cons_zero a x, h, getMsbD_cons_zero]
  · rw [← getMsbD_cons_succ a x, h, getMsbD_cons_succ]

theorem eq_cons {n : Nat} (e : BitVec (n + 1)) : ∃ b e', e = BitVec.cons b e' :=
  ⟨e.msb, e.setWidth n, (BitVec.cons_msb_setWidth e).symm⟩

theorem mem_patternsOfWeight {n w : Nat} {e : BitVec n} : e ∈ patternsOfWeight n w ↔ weight e = w := by
  induction n, w using patternsOfWeight.induct with
  | case1 n => simp [patternsOfWeight, weight_eq_zero]
  | case2 w => simp [patternsOfWeight, weight]
  | case3 n w ihSet ihClear =>
    obtain ⟨b, e, rfl⟩ := eq_cons e
    cases b <;> simp [patternsOfWeight, weight_cons, cons_eq_cons, ihSet, ihClear]

theorem mem_patternsUpTo {n t : Nat} {e : BitVec n} : e ∈ patternsUpTo n t ↔ weight e ≤ t := by
  simp [patternsUpTo, mem_patternsOfWeight]

theorem length_patternsOfWeight (n w : Nat) : (patternsOfWeight n w).length = n.choose w := by
  induction n, w using patternsOfWeight.induct with
  | case1 n => simp [patternsOfWeight]
  | case2 w => simp [patternsOfWeight]
  | case3 n w ihSet ihClear => simp [patternsOfWeight, ihSet, ihClear, Nat.choose_succ_succ]

/-- The XORs of `w` of the listed numbers, in the order of `patternsOfWeight`. -/
def xorSums : List Nat → Nat → List Nat
  | _, 0 => [0]
  | [], _ + 1 => []
  | c :: cs, w + 1 => (xorSums cs w).map (c ^^^ ·) ++ xorSums cs (w + 1)

theorem unitAt_zero_eq_cons (n : Nat) : unitAt (n + 1) 0 = BitVec.cons true 0#n :=
  eq_of_bits fun i _ => by
    cases i <;> simp

theorem unitAt_succ_eq_cons (n j : Nat) : unitAt (n + 1) (j + 1) = BitVec.cons false (unitAt n j) :=
  eq_of_bits fun i _ => by
    cases i <;> simp

theorem cons_true_eq {n : Nat} (e : BitVec n) : BitVec.cons true e = unitAt (n + 1) 0 ^^^ BitVec.cons false e := by
  rw [unitAt_zero_eq_cons, BitVec.cons_xor_cons]
  simp

/-- A linear function of the patterns of weight `w` takes the XORs of `w` of its values on single bits. -/
theorem map_patternsOfWeight {n w : Nat} {f : BitVec n → Nat} (hf : ∀ a b, f (a ^^^ b) = f a ^^^ f b) :
    (patternsOfWeight n w).map f = xorSums ((List.range n).map fun i => f (unitAt n i)) w := by
  induction n, w using patternsOfWeight.induct with
  | case1 n =>
    have hzero : f 0#n = 0 := by simpa using hf 0#n 0#n
    simp [patternsOfWeight, xorSums, hzero]
  | case2 w => rfl
  | case3 n w ihSet ihClear =>
    have hclear : ∀ a b : BitVec n, f (.cons false (a ^^^ b)) = f (.cons false a) ^^^ f (.cons false b) := fun a b => by
      simp [← hf]
    have hset : ∀ a : BitVec n, f (.cons true a) = f (unitAt (n + 1) 0) ^^^ f (.cons false a) := fun a => by
      rw [← hf, cons_true_eq]
    rw [patternsOfWeight, List.map_append, List.map_map, List.map_map, List.range_succ_eq_map, List.map_cons, List.map_map,
      xorSums]
    congr 1
    · have h := congrArg (List.map (f (unitAt (n + 1) 0) ^^^ ·)) (ihSet (f := f ∘ .cons false) hclear)
      simpa [Function.comp_def, hset, unitAt_succ_eq_cons] using h
    · simpa [Function.comp_def, unitAt_succ_eq_cons] using ihClear (f := f ∘ .cons false) hclear

/-- No number of the list is in `seen`, a set of numbers as the bits of one number, and none stands in the list twice. -/
def allFresh : Nat → List Nat → Bool
  | _, [] => true
  | seen, x :: xs => !seen.testBit x && allFresh (seen ||| 1 <<< x) xs

theorem nodup_of_allFresh {seen : Nat} {xs : List Nat} (h : allFresh seen xs = true) :
    xs.Nodup ∧ ∀ x ∈ xs, seen.testBit x = false := by
  induction xs generalizing seen with
  | nil => simp
  | cons x xs ih =>
    obtain ⟨hx, hxs⟩ : seen.testBit x = false ∧ allFresh (seen ||| 1 <<< x) xs = true := by simpa [allFresh] using h
    obtain ⟨hnodup, hfresh⟩ := ih hxs
    have hrest : ∀ y ∈ xs, seen.testBit y = false ∧ x ≠ y := fun y hy => by
      simpa [Nat.testBit_or, Nat.one_shiftLeft, Nat.testBit_two_pow] using hfresh y hy
    refine ⟨List.nodup_cons.mpr ⟨fun hmem => (hrest x hmem).2 rfl, hnodup⟩, fun y hy => ?_⟩
    rcases List.mem_cons.mp hy with rfl | hy
    · exact hx
    · exact (hrest y hy).1

end Sys2Proof.Machine
end

section
/-! The decoder of a code whose correctable errors have syndromes of their own (40_block_codes.md R105 to R107, R118). -/

namespace Sys2Proof.Machine

variable {k r : Nat} {C : BlockCode k r}

/-- The syndrome of each single wrong bit, as a number. -/
def bitSyndromes (C : BlockCode k r) : List Nat :=
  (List.range (k + r)).map fun i => (syndrome C (unitAt (k + r) i)).toNat

/-- The syndromes of the patterns of weight at most t, computed from those of single bits, are pairwise different. -/
def separatesErrors (C : BlockCode k r) : Bool :=
  allFresh 0 ((List.range (C.radius + 1)).flatMap (xorSums (bitSyndromes C)))

theorem map_syndrome_patternsUpTo (C : BlockCode k r) (t : Nat) :
    (patternsUpTo (k + r) t).map (fun e => (syndrome C e).toNat) =
      (List.range (t + 1)).flatMap (xorSums (bitSyndromes C)) := by
  have hlinear : ∀ a b : BitVec (k + r),
      (syndrome C (a ^^^ b)).toNat = (syndrome C a).toNat ^^^ (syndrome C b).toNat := fun a b => by
    rw [syndrome_xor, BitVec.toNat_xor]
  rw [patternsUpTo, List.map_flatMap]
  exact congrArg (fun sums => List.flatMap sums _) (funext fun w => map_patternsOfWeight hlinear)

theorem nodup_syndromes (hsep : separatesErrors C = true) :
    ((patternsUpTo (k + r) C.radius).map fun e => (syndrome C e).toNat).Nodup := by
  rw [map_syndrome_patternsUpTo]
  exact (nodup_of_allFresh hsep).1

/-- ROM_SYN has one pattern for a syndrome at most (40_block_codes.md R105). -/
theorem eq_of_syndrome_eq (hsep : separatesErrors C = true) {e e' : BitVec (k + r)} (he : weight e ≤ C.radius)
    (he' : weight e' ≤ C.radius) (h : syndrome C e = syndrome C e') : e = e' :=
  List.inj_on_of_nodup_map (nodup_syndromes hsep) (mem_patternsUpTo.mpr he) (mem_patternsUpTo.mpr he')
    (congrArg BitVec.toNat h)

@[simp] theorem syndrome_zero (C : BlockCode k r) : syndrome C 0#(k + r) = 0#r := by
  simpa using syndrome_xor C 0#(k + r) 0#(k + r)

/-- What an entry of ROM_SYN is (40_block_codes.md R105). -/
theorem errorPattern_some {s : BitVec r} {e : BitVec (k + r)} (h : errorPattern C s = some e) :
    weight e ≤ C.radius ∧ syndrome C e = s := by
  rcases errorPattern_cases C s with ⟨e', hmem, hsyn, hsome⟩ | ⟨-, hnone⟩
  · cases h.symm.trans hsome
    exact ⟨mem_patternsUpTo.mp hmem, hsyn⟩
  · cases h.symm.trans hnone

/-- The sentinel NONE stands where no correctable pattern has the syndrome (40_block_codes.md R105). -/
theorem errorPattern_none {s : BitVec r} (h : errorPattern C s = none) (e : BitVec (k + r)) (he : weight e ≤ C.radius) :
    syndrome C e ≠ s := by
  rcases errorPattern_cases C s with ⟨e', -, -, hsome⟩ | ⟨hnot, -⟩
  · cases h.symm.trans hsome
  · exact hnot e (mem_patternsUpTo.mpr he)

/-- A word that a pattern turns into a codeword has the pattern's syndrome. -/
theorem syndrome_xor_eq_zero {c e : BitVec (k + r)} : syndrome C (c ^^^ e) = 0#r ↔ syndrome C e = syndrome C c := by
  rw [syndrome_xor, BitVec.xor_eq_zero_iff, eq_comm]

/-- At most t errors are corrected (40_block_codes.md R106, R107). -/
theorem decodeBlock_of_correctable (hsep : separatesErrors C = true) {c e : BitVec (k + r)} (he : weight e ≤ C.radius)
    (hc : syndrome C (c ^^^ e) = 0#r) : decodeBlock C c = (c ^^^ e, ⟨k + r, weight e, false⟩) := by
  rw [syndrome_xor_eq_zero] at hc
  rcases decodeBlock_cases C c with ⟨h0, hdec⟩ | ⟨-, e', hpat, hdec⟩ | ⟨-, hpat, -⟩
  · have hzero : e = 0#(k + r) := eq_of_syndrome_eq hsep he (by simp) (by simp [hc, h0])
    simp [hdec, hzero]
  · obtain ⟨he', hsyn⟩ := errorPattern_some hpat
    rw [hdec, eq_of_syndrome_eq hsep he he' (hc.trans hsyn.symm)]
  · exact absurd hc (errorPattern_none hpat e he)

/-- A word that no pattern of weight at most t turns into a codeword is uncorrectable (40_block_codes.md R106, R118). -/
theorem decodeBlock_of_uncorrectable {c : BitVec (k + r)}
    (h : ∀ e, weight e ≤ C.radius → syndrome C (c ^^^ e) ≠ 0#r) : decodeBlock C c = (c, ⟨k + r, 0, true⟩) := by
  rcases decodeBlock_cases C c with ⟨h0, -⟩ | ⟨-, e, hpat, -⟩ | ⟨-, -, hdec⟩
  · exact absurd (by simpa using h0) (h 0#(k + r) (by simp))
  · obtain ⟨he, hsyn⟩ := errorPattern_some hpat
    exact absurd (syndrome_xor_eq_zero.mpr hsyn) (h e he)
  · exact hdec

/-- What a decode counts (40_block_codes.md R107). -/
theorem decodeBlock_counts (C : BlockCode k r) (c : BitVec (k + r)) :
    (decodeBlock C c).2.bitsChecked = k + r ∧ (decodeBlock C c).2.errorsCorrected ≤ C.radius ∧
      ((decodeBlock C c).2.uncorrectable = true → (decodeBlock C c).2.errorsCorrected = 0) := by
  rcases decodeBlock_cases C c with ⟨-, hdec⟩ | ⟨-, e, hpat, hdec⟩ | ⟨-, -, hdec⟩
  · simp [hdec]
  · simpa [hdec] using (errorPattern_some hpat).1
  · simp [hdec]

/-- A code is perfect when it has as many correctable patterns as syndromes. -/
def isPerfect (k r t : Nat) : Bool := ((List.range (t + 1)).map (k + r).choose).sum == 2 ^ r

theorem length_patternsUpTo (n t : Nat) : (patternsUpTo n t).length = ((List.range (t + 1)).map n.choose).sum := by
  simp [patternsUpTo, List.length_flatMap, length_patternsOfWeight]

/-- Sphere packing: in a perfect code the syndromes of the correctable patterns, being pairwise different, are all
there are. -/
theorem syndromes_of_perfect (hsep : separatesErrors C = true) (hperfect : isPerfect k r C.radius = true) :
    ((patternsUpTo (k + r) C.radius).map fun e => (syndrome C e).toNat).toFinset = Finset.range (2 ^ r) := by
  refine Finset.eq_of_subset_of_card_le (fun x hx => ?_) ?_
  · obtain ⟨e, -, rfl⟩ := List.mem_map.mp (List.mem_toFinset.mp hx)
    exact Finset.mem_range.mpr (syndrome C e).isLt
  · rw [List.toFinset_card_of_nodup (nodup_syndromes hsep), List.length_map, length_patternsUpTo, eq_of_beq hperfect,
      Finset.card_range]

theorem exists_pattern_of_perfect (hsep : separatesErrors C = true) (hperfect : isPerfect k r C.radius = true)
    (s : BitVec r) : ∃ e : BitVec (k + r), weight e ≤ C.radius ∧ syndrome C e = s := by
  have hs := Finset.mem_range.mpr s.isLt
  rw [← syndromes_of_perfect hsep hperfect, List.mem_toFinset] at hs
  obtain ⟨e, he, heq⟩ := List.mem_map.mp hs
  exact ⟨e, mem_patternsUpTo.mp he, BitVec.eq_of_toNat_eq heq⟩

/-- A perfect code corrects every word (40_block_codes.md R122, R128, R140). -/
theorem decodeBlock_of_perfect (hsep : separatesErrors C = true) (hperfect : isPerfect k r C.radius = true)
    (c : BitVec (k + r)) : (decodeBlock C c).2.uncorrectable = false := by
  obtain ⟨e, he, hsyn⟩ := exists_pattern_of_perfect hsep hperfect (syndrome C c)
  rw [decodeBlock_of_correctable hsep he (syndrome_xor_eq_zero.mpr hsyn)]

/-- Where every codeword has even weight, t+1 errors are not t or fewer: two patterns with one syndrome have weights of one
parity, so the lighter has at most t-1 bits, and one bit changed in both leaves two correctable patterns with one syndrome. -/
theorem decodeBlock_of_oneTooMany (hsep : separatesErrors C = true)
    (heven : ∀ x : BitVec (k + r), syndrome C x = 0#r → (weight x).bodd = false) {x e : BitVec (k + r)}
    (hx : syndrome C x = 0#r) (he : weight e = C.radius + 1) :
    decodeBlock C (x ^^^ e) = (x ^^^ e, ⟨k + r, 0, true⟩) := by
  refine decodeBlock_of_uncorrectable fun e' he' hcode => ?_
  have hsame : syndrome C e' = syndrome C e := by
    simpa [syndrome_xor, hx] using syndrome_xor_eq_zero.mp hcode
  have hparity : (weight e').bodd = (weight e).bodd := by
    have h := heven (e ^^^ e') (syndrome_xor_eq_zero.mpr hsame)
    rw [bodd_weight_xor] at h
    exact (bne_eq_false_iff_eq.mp h).symm
  have hlight : weight e' + 1 ≤ C.radius := by
    have hne : weight e' ≠ C.radius := fun heq => by simp [heq, he] at hparity
    omega
  obtain ⟨j, hj⟩ : ∃ j, e.getMsbD j = true := by
    by_contra hnone
    have hzero : e = 0#(k + r) := eq_of_bits fun i _ => by simpa using fun h => hnone ⟨i, h⟩
    simp [hzero] at he
  have hclear := weight_xor_unitAt_of_set hj
  have hflip := weight_xor_unitAt_le e' j
  have heq : e' ^^^ unitAt (k + r) j = e ^^^ unitAt (k + r) j :=
    eq_of_syndrome_eq hsep (by omega) (by omega) (by rw [syndrome_xor, syndrome_xor, hsame])
  rw [BitVec.xor_left_inj] at heq
  rw [heq] at hlight
  omega

end Sys2Proof.Machine
end

section
/-! Polynomial division over GF(2) (40_block_codes.md R102): the check bits it computes are linear in the data bits, so they are
known from the data vectors with one bit set. -/

namespace Sys2Proof.Machine

/-- One step of the division is linear in the remainder and the coefficient brought down. -/
theorem divisionStep_xor (g m x y : Nat) (a b : Bool) :
    divisionStep g m (x ^^^ y) (a ^^ b) = divisionStep g m x a ^^^ divisionStep g m y b := by
  have hdown : 2 * (x ^^^ y) + (a ^^ b).toNat = (2 * x + a.toNat) ^^^ (2 * y + b.toNat) := by
    have h := (Nat.xor_bit a x b y).symm
    cases a <;> cases b <;> simpa [Nat.bit_val] using h
  simp only [divisionStep, hdown, Nat.testBit_xor]
  cases (2 * x + a.toNat).testBit m <;> cases (2 * y + b.toNat).testBit m <;>
    simp [Nat.xor_left_comm, Nat.xor_comm]

theorem foldl_divisionStep_xor {α : Type} (g m : Nat) (l : List α) (a b : α → Bool) (x y : Nat) :
    (l.map fun i => a i ^^ b i).foldl (divisionStep g m) (x ^^^ y) =
      (l.map a).foldl (divisionStep g m) x ^^^ (l.map b).foldl (divisionStep g m) y := by
  induction l generalizing x y with
  | nil => rfl
  | cons i l ih => simp only [List.map_cons, List.foldl_cons, divisionStep_xor, ih]

/-- Check bit `j` of the polynomial remainder (R102, without the overall parity bit). -/
def remainderBit (row : BlockRow) (d : Nat → Bool) (j : Nat) : Bool :=
  (polyRemainder row.g row.m ((List.range row.k).map d ++ List.replicate row.m false)).testBit (row.m - 1 - j)

/-- The overall parity bit of R102. -/
def overallBit (row : BlockRow) (d : Nat → Bool) : Bool :=
  ((List.range row.k).map d ++ (List.range row.m).map (remainderBit row d)).foldl xor false

theorem divisionParity_eq (row : BlockRow) (d : Nat → Bool) :
    divisionParity row d =
      (List.range row.m).map (remainderBit row d) ++ if row.ext then [overallBit row d] else [] := by
  cases h : row.ext <;> simp only [divisionParity, h, Bool.false_eq_true, if_true, if_false, List.append_nil] <;> rfl

/-- As many check bits as n−k (40_block_codes.md R101): the degree of g, and one with EXT. -/
theorem length_divisionParity (row : BlockRow) (d : Nat → Bool) :
    (divisionParity row d).length = row.m + row.ext.toNat := by
  cases h : row.ext <;> simp [divisionParity_eq, h]

theorem divisionParity_getD (row : BlockRow) (d : Nat → Bool) (j : Nat) :
    (divisionParity row d).getD j false =
      if j < row.m then remainderBit row d j else (row.ext && decide (j = row.m) && overallBit row d) := by
  rcases Nat.lt_trichotomy j row.m with hj | rfl | hj
  · simp [divisionParity_eq, List.getElem?_append, hj]
  · cases hext : row.ext <;> simp [divisionParity_eq, hext]
  · have hlen : (divisionParity row d).length ≤ j := by
      rw [length_divisionParity]
      exact Nat.le_trans (Nat.add_le_add_left (Bool.toNat_le _) _) hj
    rw [List.getD_eq_default _ _ hlen]
    simp [Nat.lt_asymm hj, Nat.ne_of_gt hj]

theorem remainderBit_xor (row : BlockRow) (a b : Nat → Bool) (j : Nat) :
    remainderBit row (fun i => a i ^^ b i) j = (remainderBit row a j ^^ remainderBit row b j) := by
  have hzeros : List.replicate row.m false = (List.range row.m).map fun _ => false := by simp
  simp only [remainderBit, polyRemainder, ← Nat.testBit_xor, List.foldl_append, hzeros, ← foldl_divisionStep_xor]
  rfl

theorem overallBit_eq_bodd (row : BlockRow) (d : Nat → Bool) :
    overallBit row d = (((List.range row.k).countP d).bodd ^^ ((List.range row.m).countP (remainderBit row d)).bodd) := by
  simp [overallBit, foldl_xor_eq_bodd]

theorem overallBit_xor (row : BlockRow) (a b : Nat → Bool) :
    overallBit row (fun i => a i ^^ b i) = (overallBit row a ^^ overallBit row b) := by
  have hrem : remainderBit row (fun i => a i ^^ b i) = fun j => remainderBit row a j ^^ remainderBit row b j :=
    funext (remainderBit_xor row a b)
  simp only [overallBit_eq_bodd, hrem, bodd_countP_xor, Bool.xor_assoc, Bool.xor_left_comm]

/-- The check bits of R102 are linear in the data bits. -/
theorem divisionParity_xor (row : BlockRow) (a b : Nat → Bool) (j : Nat) :
    (divisionParity row fun i => a i ^^ b i).getD j false =
      ((divisionParity row a).getD j false ^^ (divisionParity row b).getD j false) := by
  simp only [divisionParity_getD, remainderBit_xor, overallBit_xor]
  split
  · rfl
  · exact Bool.and_xor_distrib_left _ _ _

/-- They depend on the data bits alone. -/
theorem divisionParity_congr {row : BlockRow} {a b : Nat → Bool} (h : ∀ i, i < row.k → a i = b i) :
    divisionParity row a = divisionParity row b := by
  have hmap : (List.range row.k).map a = (List.range row.k).map b :=
    List.map_congr_left fun i hi => h i (List.mem_range.mp hi)
  simp only [divisionParity, hmap]

/-- With an overall parity bit a codeword has an even number of ones (40_block_codes.md R102). -/
theorem IsCodeword.bodd_countP {row : BlockRow} {c : Nat → Bool} (h : IsCodeword row c) (hext : row.ext = true)
    (hr : row.r = row.m + 1) : ((List.range (row.k + row.r)).countP c).bodd = false := by
  have hremainder : ∀ j ∈ List.range row.m, (c ∘ (row.k + ·)) j = true ↔ remainderBit row c j = true := fun j hj => by
    have hj : j < row.m := List.mem_range.mp hj
    rw [Function.comp_apply, h j (by omega), divisionParity_getD, if_pos hj]
  have hoverall : c (row.k + row.m) = overallBit row c := by
    rw [h row.m (by omega), divisionParity_getD]
    simp [hext]
  have hrange : List.range (row.k + row.r) =
      List.range row.k ++ ((List.range row.m).map (row.k + ·) ++ [row.k + row.m]) := by
    rw [hr, List.range_add]
    simp [List.range_succ]
  rw [hrange, List.countP_append, List.countP_append, List.countP_map, List.countP_singleton, hoverall, Nat.bodd_add,
    Nat.bodd_add, List.countP_congr hremainder, overallBit_eq_bodd]
  cases ((List.range row.k).countP c).bodd <;> cases ((List.range row.m).countP (remainderBit row c)).bodd <;> rfl

/-- Two linear functions that agree on the vectors with one bit set agree. -/
theorem eq_of_eq_on_units {n : Nat} {f g : BitVec n → Bool} (hf : ∀ a b, f (a ^^^ b) = (f a ^^ f b))
    (hg : ∀ a b, g (a ^^^ b) = (g a ^^ g b)) (h : ∀ i, i < n → f (unitAt n i) = g (unitAt n i)) (d : BitVec n) :
    f d = g d := by
  induction n with
  | zero =>
    have hfzero : f 0#0 = false := by simpa using hf 0#0 0#0
    have hgzero : g 0#0 = false := by simpa using hg 0#0 0#0
    rw [BitVec.eq_nil d]
    exact hfzero.trans hgzero.symm
  | succ n ih =>
    obtain ⟨b, e, rfl⟩ := eq_cons d
    have hclear : f (.cons false e) = g (.cons false e) := by
      refine ih (f := f ∘ .cons false) (g := g ∘ .cons false) (fun a b => ?_) (fun a b => ?_) (fun i hi => ?_) e
      · simp [← hf]
      · simp [← hg]
      · simpa [unitAt_succ_eq_cons] using h (i + 1) (Nat.succ_lt_succ hi)
    cases b with
    | false => exact hclear
    | true => rw [cons_true_eq, hf, hg, hclear, h 0 (Nat.succ_pos n)]

end Sys2Proof.Machine
end

section
/-! The outcome of a command that performs its rule, in the terms of the statements (10_state.md R25, R26; 60_exceptions.md
R338). -/

namespace Sys2Proof.Machine

/-- The counts and lengths of the spec fit in 16 bits (00_scope.md R16). -/
theorem toNat_ofNat_of_le {m : Nat} (hm : m ≤ 196) : (BitVec.ofNat 16 m).toNat = m := by
  rw [BitVec.toNat_ofNat]
  omega

theorem result_completes {n : Nat} (out : BitVec n) {fec : FecResult} (s : State) (hn : n ≤ 196) (hfec : fec.Bounded)
    {u : Bool} (hu : fec.uncorrectable = u) :
    Completes (.next (result out fec s)) s out fec.bitsChecked fec.errorsCorrected u := by
  obtain ⟨herr, hbits⟩ := hfec
  refine ⟨_, rfl, ⟨fun i hi => ?_, fun i hi _ => ?_, toNat_ofNat_of_le hn⟩,
    ⟨toNat_ofNat_of_le hbits, toNat_ofNat_of_le (herr.trans hbits), hu⟩, rfl, rfl, rfl, rfl, rfl, rfl, rfl, rfl⟩
  · have hi' : i < 256 := by omega
    simp [hi']
  · simp [BitVec.getMsbD_of_ge out i hi]

theorem resultPlain_completes {n : Nat} (out : BitVec n) (s : State) (hn : n ≤ 196) :
    Completes (.next (resultPlain out s)) s out 0 0 false :=
  result_completes out s hn noFec_bounded rfl

theorem resultDecoded_completes {m n : Nat} (received : BitVec m) {decoded : BitVec n × FecResult} (s : State)
    (hn : n ≤ 196) (hfec : decoded.2.Bounded) (hu : decoded.2.uncorrectable = false) :
    Completes (.next (resultDecoded received decoded s)) s decoded.1 decoded.2.bitsChecked decoded.2.errorsCorrected
      false := by
  rcases resultDecoded_cases received decoded s with ⟨-, h⟩ | ⟨htrue, -, -⟩
  · exact h ▸ result_completes decoded.1 s hn hfec hu
  · simp [hu] at htrue

theorem resultDecoded_completesUncorrectable {m n : Nat} (received : BitVec m) {decoded : BitVec n × FecResult} (s : State)
    (hn : n ≤ 196) (hfec : decoded.2.Bounded) (hu : decoded.2.uncorrectable = true) :
    CompletesUncorrectable (.next (resultDecoded received decoded s)) s decoded.1 decoded.2.bitsChecked
      decoded.2.errorsCorrected := by
  rcases resultDecoded_cases received decoded s with ⟨-, h⟩ | ⟨-, hany, out, h⟩ <;> rw [h]
  · exact ⟨decoded.1, result_completes decoded.1 s hn hfec hu, fun _ => rfl⟩
  · exact ⟨out, result_completes out s hn hfec hu, fun hdecided => by simp [hany] at hdecided⟩

/-- A readable operand is held. -/
theorem holdsOperand_operand {s : State} {n : Nat} (h : OperandReadable s n) : HoldsOperand s (operand s n) :=
  ⟨h, fun i hi => by simp [operand, hi]⟩

end Sys2Proof.Machine
end

section
/-! The nine block codes (40_block_codes.md R100 to R107): what ties the model's code to its row of R101, and the statements
about all nine. -/

namespace Sys2Proof.Machine

/-- The finite facts about a code and its row of R101: t, n−k, and the check bits of the data vectors with one bit set; and no
two correctable patterns share a syndrome. -/
abbrev AgreesWithRow (row : BlockRow) (C : BlockCode row.k row.r) : Prop :=
  C.radius = row.t ∧ row.r = row.m + row.ext.toNat ∧ row.k + row.r ≤ 196 ∧
    (∀ i, i < row.k → ∀ j, j < row.r → (parity C (unitAt row.k i)).getMsbD j =
      (divisionParity row fun l => (unitAt row.k i).getMsbD l).getD j false) ∧
    separatesErrors C = true

/-- The model performs the commands of the row by the code `C`, which has the row's parameters. -/
structure Realizes (row : BlockRow) (C : BlockCode row.k row.r) : Prop where
  par : ∀ {s : State} {d : BitVec row.k}, HoldsOperand s d →
    exec (row.par 0#8 (BitVec.ofNat 16 row.k)) s = .next (resultPlain (parity C d) s)
  enc : ∀ {s : State} {d : BitVec row.k}, HoldsOperand s d →
    exec (row.enc 0#8 (BitVec.ofNat 16 row.k)) s = .next (resultPlain (encodeBlock C d) s)
  dec : ∀ {s : State} {c : BitVec (row.k + row.r)}, HoldsOperand s c →
    exec (row.dec 0#8 (BitVec.ofNat 16 (row.k + row.r))) s = .next (resultDecoded c (decodeBlock C c) s)
  agrees : AgreesWithRow row C

/-- Every row of R101 has its code in the model. -/
theorem exists_realizes {row : BlockRow} (h : row ∈ blockRows) : ∃ C, Realizes row C := by
  simp only [blockRows, List.mem_cons, List.not_mem_nil, or_false] at h
  rcases h with rfl | rfl | rfl | rfl | rfl | rfl | rfl | rfl | rfl
  · exact ⟨h743, (exec_of_holdsOperand · rfl rfl), (exec_of_holdsOperand · rfl rfl), (exec_of_holdsOperand · rfl rfl),
      by decide +kernel⟩
  · exact ⟨h1393, (exec_of_holdsOperand · rfl rfl), (exec_of_holdsOperand · rfl rfl), (exec_of_holdsOperand · rfl rfl),
      by decide +kernel⟩
  · exact ⟨h15113, (exec_of_holdsOperand · rfl rfl), (exec_of_holdsOperand · rfl rfl), (exec_of_holdsOperand · rfl rfl),
      by decide +kernel⟩
  · exact ⟨h16114, (exec_of_holdsOperand · rfl rfl), (exec_of_holdsOperand · rfl rfl), (exec_of_holdsOperand · rfl rfl),
      by decide +kernel⟩
  · exact ⟨h17123, (exec_of_holdsOperand · rfl rfl), (exec_of_holdsOperand · rfl rfl), (exec_of_holdsOperand · rfl rfl),
      by decide +kernel⟩
  · exact ⟨g2087, (exec_of_holdsOperand · rfl rfl), (exec_of_holdsOperand · rfl rfl), (exec_of_holdsOperand · rfl rfl),
      by decide +kernel⟩
  · exact ⟨g23127, (exec_of_holdsOperand · rfl rfl), (exec_of_holdsOperand · rfl rfl), (exec_of_holdsOperand · rfl rfl),
      by decide +kernel⟩
  · exact ⟨g24128, (exec_of_holdsOperand · rfl rfl), (exec_of_holdsOperand · rfl rfl), (exec_of_holdsOperand · rfl rfl),
      by decide +kernel⟩
  · exact ⟨qr1676, (exec_of_holdsOperand · rfl rfl), (exec_of_holdsOperand · rfl rfl), (exec_of_holdsOperand · rfl rfl),
      by decide +kernel⟩

namespace Realizes

variable {row : BlockRow} {C : BlockCode row.k row.r} (hC : Realizes row C)
include hC

/-- The XOR equations of R108 to R116 compute the polynomial remainder of R102. -/
theorem parity_eq (d : BitVec row.k) {j : Nat} (hj : j < row.r) :
    (parity C d).getMsbD j = (divisionParity row fun i => d.getMsbD i).getD j false := by
  obtain ⟨-, -, -, hunits, -⟩ := hC.agrees
  refine eq_of_eq_on_units (f := fun d => (parity C d).getMsbD j)
    (g := fun d => (divisionParity row fun i => d.getMsbD i).getD j false) (fun a b => ?_) (fun a b => ?_)
    (fun i hi => hunits i hi j hj) d
  · rw [parity_xor, BitVec.getMsbD_xor]
  · simp only [BitVec.getMsbD_xor, divisionParity_xor]

/-- The codewords of R102 are the words with syndrome 0 (40_block_codes.md R104). -/
theorem isCodeword_iff (c : BitVec (row.k + row.r)) : IsCodeword row (fun i => c.getMsbD i) ↔ syndrome C c = 0#row.r := by
  have hdata : (divisionParity row fun i => (slice c 0 row.k).getMsbD i) = divisionParity row fun i => c.getMsbD i :=
    divisionParity_congr fun i hi => by simp [hi]
  rw [syndrome_eq_zero]
  refine ⟨fun h => eq_of_bits fun j hj => ?_, fun h j hj => ?_⟩
  · rw [hC.parity_eq _ hj, hdata, ← h j hj]
    simp [hj]
  · rw [← hdata, ← hC.parity_eq _ hj, ← h]
    simp [hj]

/-- With an overall parity bit every codeword has even weight (40_block_codes.md R102). -/
theorem bodd_weight_of_codeword (hext : row.ext = true) {x : BitVec (row.k + row.r)} (hx : syndrome C x = 0#row.r) :
    (weight x).bodd = false := by
  obtain ⟨-, hr, -, -, -⟩ := hC.agrees
  exact ((hC.isCodeword_iff x).mpr hx).bodd_countP hext (by simpa [hext] using hr)

end Realizes

/-- Settles O20. -/
theorem parityIsPolynomialDivision : Obligations.ParityIsPolynomialDivision := by
  intro row hrow s d hd
  obtain ⟨C, hC⟩ := exists_realizes hrow
  obtain ⟨-, hr, hlen, -, -⟩ := hC.agrees
  refine ⟨parity C d, fun j => hC.parity_eq d, (length_divisionParity row _).trans hr.symm, ?_⟩
  rw [hC.par hd]
  exact resultPlain_completes _ s (by omega)

/-- Settles O21. -/
theorem encodeIsDataThenParity : Obligations.EncodeIsDataThenParity := by
  intro row hrow s d hd
  obtain ⟨C, hC⟩ := exists_realizes hrow
  obtain ⟨-, -, hlen, -, -⟩ := hC.agrees
  rw [hC.par hd, hC.enc hd]
  exact ⟨parity C d, resultPlain_completes _ s (by omega), resultPlain_completes _ s hlen⟩

/-- Settles O22. -/
theorem decodeIsBoundedDistance : Obligations.DecodeIsBoundedDistance := by
  intro row hrow s c hc
  obtain ⟨C, hC⟩ := exists_realizes hrow
  obtain ⟨ht, -, hlen, -, hsep⟩ := hC.agrees
  rw [hC.dec hc]
  simp only [hC.isCodeword_iff, ← ht]
  refine ⟨fun e he hcode => ?_, fun hnone => ?_⟩
  · rw [decodeBlock_of_correctable hsep he hcode]
    exact resultDecoded_completes c s hlen ⟨weight_le e, hlen⟩ rfl
  · rw [decodeBlock_of_uncorrectable hnone]
    exact resultDecoded_completesUncorrectable c s hlen ⟨Nat.zero_le _, hlen⟩ rfl

theorem isPerfect_of_mem {row : BlockRow} (h : row ∈ [rowH743, rowH15113, rowG23127]) :
    isPerfect row.k row.r row.t = true := by
  revert row
  decide +kernel

theorem ext_of_mem {row : BlockRow} (h : row ∈ [rowH16114, rowG2087, rowG24128, rowQR1676]) : row.ext = true := by
  revert row
  decide

/-- Settles O23: these three codes are perfect. -/
theorem perfectCodesAlwaysCorrect : Obligations.PerfectCodesAlwaysCorrect := by
  intro row hrow s hread
  have hmem : row ∈ blockRows := by revert row; simp [blockRows]
  obtain ⟨C, hC⟩ := exists_realizes hmem
  obtain ⟨ht, -, -, -, hsep⟩ := hC.agrees
  refine ⟨_, hC.dec (holdsOperand_operand hread), ?_⟩
  rw [resultDecoded_resUnc, decodeBlock_of_perfect hsep (ht ▸ isPerfect_of_mem hrow)]

/-- Settles O24: the codewords of these four codes have even weight. -/
theorem oneErrorTooManyIsDetected : Obligations.OneErrorTooManyIsDetected := by
  intro row hrow s x e hx he hc
  have hmem : row ∈ blockRows := by revert row; simp [blockRows]
  obtain ⟨C, hC⟩ := exists_realizes hmem
  obtain ⟨ht, -, hlen, -, hsep⟩ := hC.agrees
  have heven : ∀ y, syndrome C y = 0#row.r → (weight y).bodd = false := fun _ =>
    hC.bodd_weight_of_codeword (ext_of_mem hrow)
  rw [hC.dec hc, decodeBlock_of_oneTooMany hsep heven ((hC.isCodeword_iff x).mp hx) (ht ▸ he)]
  exact resultDecoded_completesUncorrectable _ s hlen ⟨Nat.zero_le _, hlen⟩ rfl

end Sys2Proof.Machine
end

section
/-! What the other decoders count (41_bptc.md R206, R209, R213; 42_trellis.md R271; 43_reed_solomon.md R301). -/

namespace Sys2Proof.Machine

/-- A pass loop keeps what each pass keeps. -/
theorem repeatPasses_induction {n : Nat} {P : BitVec n → Prop} {pass : BitVec n → BitVec n × Bool}
    (hpass : ∀ m, P m → P (pass m).1) (limit : Nat) {m : BitVec n} (hm : P m) : P (repeatPasses pass limit m).1 := by
  induction limit generalizing m with
  | zero => exact hm
  | succ limit ih =>
    rw [repeatPasses_succ]
    split
    · exact ih (hpass m hm)
    · exact hpass m hm

/-- From place `p` on, the matrix is the one the decoder began with. -/
def SameFrom {n : Nat} (p : Nat) (m₀ m : BitVec n) : Prop := ∀ i, p ≤ i → m.getMsbD i = m₀.getMsbD i

theorem fixRow_sameFrom {k r n : Nat} (policy : RowPolicy) (C : BlockCode k r) (v : BitVec (k + r)) {m₀ : BitVec n}
    {st : BitVec n × Bool} {a dataRows : Nat} (ha : a < dataRows) (h : SameFrom (dataRows * (k + r)) m₀ st.1) :
    SameFrom (dataRows * (k + r)) m₀ (fixRow policy C v st a).1 := by
  unfold fixRow
  simp only
  split
  · intro i hi
    have hrow : a * (k + r) + (k + r) ≤ dataRows * (k + r) := by
      rw [← Nat.succ_mul]
      exact Nat.mul_le_mul_right _ ha
    have hout : ¬ (a * (k + r) ≤ i ∧ i < a * (k + r) + (k + r)) := by omega
    rw [getMsbD_setSlice, if_neg hout, h i hi]
    by_cases hn : i < n <;> simp [hn, BitVec.getMsbD_of_ge, Nat.le_of_not_lt]
  · exact h

/-- A pass never changes the parity row (41_bptc.md R209). -/
theorem passParity_sameFrom {k r n : Nat} (policy : RowPolicy) (C : BlockCode k r) (dataRows : Nat) (odd : Bool)
    {m₀ m : BitVec n} (h : SameFrom (dataRows * (k + r)) m₀ m) :
    SameFrom (dataRows * (k + r)) m₀ (passParity policy C dataRows odd m).1 := by
  unfold passParity
  refine List.foldlRecOn (motive := fun st : BitVec n × Bool => SameFrom (dataRows * (k + r)) m₀ st.1) _ _ h
    fun st hst a ha => ?_
  have hrow : a < dataRows := List.mem_range.mp ha
  exact fixRow_sameFrom policy C _ hrow hst

/-- The parity-column decoders count bits of their data rows (41_bptc.md R209, R213). -/
theorem decodeParity_count_le {k r n : Nat} (policy : RowPolicy) (C : BlockCode k r) (dataRows : Nat) (odd : Bool)
    (map : List Nat) (tx : BitVec n) :
    (decodeParity policy C dataRows odd map tx).2.errorsCorrected ≤ dataRows * (k + r) := by
  have hsame : SameFrom (dataRows * (k + r)) (scatter map tx)
      (repeatPasses (passParity policy C dataRows odd) passLimit (scatter map tx)).1 :=
    repeatPasses_induction (fun _ => passParity_sameFrom policy C dataRows odd) passLimit fun _ _ => rfl
  exact weight_le_of_zero_from fun i hi => by rw [BitVec.getMsbD_xor, hsame i hi, Bool.xor_self]

/-- M[0] is not counted (41_bptc.md R206). -/
theorem changed196_le_195 (m m0 : BitVec 196) : changed196 m m0 ≤ 195 := by
  unfold changed196
  exact List.countP_le_length.trans_eq (by simp)

theorem decode196_count_le (tx : BitVec 196) : (decode196 tx).2.errorsCorrected ≤ 195 :=
  changed196_le_195 _ _

theorem decodeTrellis_count_le (tx : BitVec 196) : (decodeTrellis tx).2.errorsCorrected ≤ 49 := by
  have hlen : (receivedPoints tx).length = 49 := by simp [receivedPoints]
  exact (decodePoints_count_le 0#3 (receivedPoints tx)).trans_eq hlen

theorem correctRs_counts (b : BitVec 96) (s1 s2 s3 : Byte) :
    (correctRs b s1 s2 s3).2.bitsChecked = 96 ∧ (correctRs b s1 s2 s3).2.errorsCorrected ≤ 8 := by
  unfold correctRs
  split
  · exact ⟨rfl, Nat.zero_le 8⟩
  · split
    · exact ⟨rfl, weight_le _⟩
    · exact ⟨rfl, Nat.zero_le 8⟩

/-- RES_BITS and RES_ERR after a decode. -/
theorem resultDecoded_counts {m n b e : Nat} (received : BitVec m) {decoded : BitVec n × FecResult} (s : State)
    (hfec : decoded.2.Bounded) (hbits : decoded.2.bitsChecked = b) (herr : decoded.2.errorsCorrected ≤ e) :
    (resultDecoded received decoded s).resBits.toNat = b ∧ (resultDecoded received decoded s).resErr.toNat ≤ e := by
  obtain ⟨hle, h196⟩ := hfec
  rw [resultDecoded_resBits, resultDecoded_resErr, toNat_ofNat_of_le h196, toNat_ofNat_of_le (hle.trans h196)]
  exact ⟨hbits, herr⟩

/-- What the decode command of a block code counts (40_block_codes.md R107). -/
theorem blockDecode_counts {row : BlockRow} (hrow : row ∈ blockRows) {s : State}
    (hread : OperandReadable s (row.k + row.r)) :
    ∃ t, exec (row.dec 0#8 (BitVec.ofNat 16 (row.k + row.r))) s = .next t ∧ t.resBits.toNat = row.k + row.r ∧
      t.resErr.toNat ≤ row.t ∧ (t.resUnc = true → t.resErr.toNat = 0) := by
  obtain ⟨C, hC⟩ := exists_realizes hrow
  obtain ⟨ht, -, hlen, -, -⟩ := hC.agrees
  obtain ⟨hbits, herr, hunc⟩ := decodeBlock_counts C (operand s (row.k + row.r))
  have hfec := decodeBlock_bounded C (operand s (row.k + row.r)) hlen
  refine ⟨_, hC.dec (holdsOperand_operand hread), ?_⟩
  obtain ⟨hresBits, hresErr⟩ := resultDecoded_counts (operand s (row.k + row.r)) s hfec hbits (ht ▸ herr)
  refine ⟨hresBits, hresErr, fun hu => ?_⟩
  rw [resultDecoded_resUnc] at hu
  rw [resultDecoded_resErr, hunc hu]
  rfl

theorem parityDecode_counts {i : Instr} {k r n b e : Nat} {C : BlockCode k r} {dataRows : Nat} {odd : Bool}
    {map : List Nat} {s : State} {tx : BitVec n}
    (hexec : exec i s = .next (resultDecoded tx (decodeParity s.params.rowPolicy C dataRows odd map tx) s))
    (hn : n ≤ 196) (hb : n = b) (he : dataRows * (k + r) = e) :
    ∃ t, exec i s = .next t ∧ t.resBits.toNat = b ∧ t.resErr.toNat ≤ e :=
  ⟨_, hexec, resultDecoded_counts tx s (decodeParity_bounded _ C dataRows odd map tx hn) hb
    (he ▸ decodeParity_count_le _ C dataRows odd map tx)⟩

/-- Settles O25: each decoder's bound, behind the command that performs it. -/
theorem decodeCountsAreBounded : Obligations.DecodeCountsAreBounded := by
  refine ⟨fun row hrow s => blockDecode_counts hrow, fun entry hentry s hread => ?_⟩
  have hv := holdsOperand_operand hread
  simp only [List.mem_cons, List.not_mem_nil, or_false] at hentry
  rcases hentry with rfl | rfl | rfl | rfl | rfl | rfl | rfl
  · exact ⟨_, exec_of_holdsOperand hv rfl rfl, resultDecoded_counts _ s (decode196_bounded _) rfl (decode196_count_le _)⟩
  · exact parityDecode_counts (exec_of_holdsOperand hv rfl rfl) (by decide) rfl rfl
  · exact parityDecode_counts (exec_of_holdsOperand hv rfl rfl) (by decide) rfl rfl
  · exact parityDecode_counts (exec_of_holdsOperand hv rfl rfl) (by decide) rfl rfl
  · exact parityDecode_counts (exec_of_holdsOperand hv rfl rfl) (by decide) rfl rfl
  · exact ⟨_, exec_of_holdsOperand hv rfl rfl, resultDecoded_counts _ s (decodeTrellis_bounded _) rfl
      (decodeTrellis_count_le _)⟩
  · obtain ⟨hbits, herr⟩ := correctRs_counts (slice (operand s 120) 0 96) (byteAt (operand s 120) 12)
      (byteAt (operand s 120) 13) (byteAt (operand s 120) 14)
    exact ⟨_, exec_of_holdsOperand hv rfl rfl, resultDecoded_counts _ s (correctRs_bounded _ _ _ _) hbits herr⟩

end Sys2Proof.Machine
end

section
/-! The Short-LC assembler commands (41_bptc.md R217, R228, R229). -/

namespace Sys2Proof.Machine

/-- A command without an operand holds it in every state. -/
theorem holdsOperand_nil (s : State) (v : BitVec 0) : HoldsOperand s v :=
  ⟨.inr fun _ hi => absurd hi (Nat.not_lt_zero _), fun _ hi => absurd hi (Nat.not_lt_zero _)⟩

/-- Settles O36. -/
theorem slcResetEmptiesTheAssembler : Obligations.SlcResetEmptiesTheAssembler := by
  intro s
  refine ⟨_, exec_of_holdsOperand (i := .slcReset 0#8 0#16) (holdsOperand_nil s 0#0) rfl rfl, rfl, rfl, rfl, ?_, ?_⟩
  · exact ⟨eq_of_bits fun i hi => by simp [ruleOf], rfl, rfl, rfl, rfl⟩
  · exact ⟨rfl, rfl, rfl, rfl, rfl, rfl, rfl⟩

/-- The buffer after a fragment is stored in slot `i` (41_bptc.md R217). -/
theorem getMsbD_storeFragment (buf : BitVec 68) (i : Nat) (f : BitVec 17) {p : Nat} (hp : p < 68) :
    (storeFragment buf i f).getMsbD p =
      if 17 * i ≤ p ∧ p < 17 * i + 17 then f.getMsbD (p - 17 * i) else buf.getMsbD p := by
  simp [storeFragment, hp]

/-- Settles O37. -/
theorem slcPushStoresTheFragment : Obligations.SlcPushStoresTheFragment := by
  intro s f hf hcnt
  have hexec : exec (.slcPush 0#8 17#16) s = .next (pushFragment f s) :=
    exec_of_holdsOperand (i := .slcPush 0#8 17#16) hf rfl rfl
  rw [pushFragment_pending f hcnt] at hexec
  refine ⟨_, hexec, ?_, fun p hp => getMsbD_storeFragment s.slcBuf s.slcCnt.toNat f hp, rfl, ⟨rfl, rfl, rfl, rfl, rfl⟩,
    rfl, rfl, rfl, rfl, rfl, rfl, rfl⟩
  rw [raise_slcCnt, BitVec.toNat_add_of_lt]
  · rfl
  · have hone : (1#3).toNat = 1 := rfl
    omega

end Sys2Proof.Machine
end

section
/-! The pass loop of the BPTC decoders (41_bptc.md R214): it is the loop of the rule, and it commutes with every map of the
matrix that the passes commute with. -/

namespace Sys2Proof.Machine

/-- `LoopR214` for any ceiling. -/
def RunsLoop (limit : Nat) {n : Nat} (pass : BitVec n → BitVec n × Bool) (m₀ m : BitVec n) (passes : Nat) : Prop :=
  1 ≤ passes ∧ passes ≤ limit ∧ m = (fun x => (pass x).1)^[passes] m₀ ∧
    (∀ i, i + 1 < passes → (pass ((fun x => (pass x).1)^[i] m₀)).2 = true) ∧
    (passes < limit → (pass ((fun x => (pass x).1)^[passes - 1] m₀)).2 = false)

/-- One pass that fixed something, then a loop with one pass less to go. -/
theorem RunsLoop.cons {limit n passes : Nat} {pass : BitVec n → BitVec n × Bool} {m₀ m : BitVec n}
    (hfix : (pass m₀).2 = true) (h : RunsLoop limit pass (pass m₀).1 m passes) :
    RunsLoop (limit + 1) pass m₀ m (passes + 1) := by
  obtain ⟨hpos, hle, hm, hfixing, hlast⟩ := h
  refine ⟨by omega, by omega, hm, fun i hi => ?_, fun hlt => ?_⟩
  · cases i with
    | zero => exact hfix
    | succ i => exact hfixing i (by omega)
  · obtain ⟨p, rfl⟩ : ∃ p, passes = p + 1 := ⟨passes - 1, by omega⟩
    exact hlast (by omega)

theorem repeatPasses_runsLoop {n : Nat} (pass : BitVec n → BitVec n × Bool) (limit : Nat) (m₀ : BitVec n) :
    RunsLoop (limit + 1) pass m₀ (repeatPasses pass (limit + 1) m₀).1 (repeatPasses pass (limit + 1) m₀).2 := by
  induction limit generalizing m₀ with
  | zero =>
    rw [repeatPasses_succ]
    split
    · exact ⟨by simp [repeatPasses], by simp [repeatPasses], rfl, by simp [repeatPasses], by simp [repeatPasses]⟩
    · next hfix => exact ⟨by simp, by simp, rfl, by simp, fun _ => by simpa using hfix⟩
  | succ limit ih =>
    rw [repeatPasses_succ]
    split
    · next hfix => exact (ih (pass m₀).1).cons hfix
    · next hfix => exact ⟨by simp, by simp, rfl, by simp, fun _ => by simpa using hfix⟩

/-- The loop of every BPTC decoder is that of R214. -/
theorem repeatPasses_loopR214 {n : Nat} (pass : BitVec n → BitVec n × Bool) (m₀ : BitVec n) :
    LoopR214 pass m₀ (repeatPasses pass passLimit m₀).1 (repeatPasses pass passLimit m₀).2 :=
  repeatPasses_runsLoop pass 4 m₀

/-- Settles O30. -/
theorem passLoopStopsAtTheCeiling : Obligations.PassLoopStopsAtTheCeiling :=
  ⟨fun _ => repeatPasses_loopR214, fun tx => ⟨_, _, repeatPasses_loopR214 pass196 (gather idx196 tx), rfl⟩,
    fun _ _ _ dataRows C policy odd map tx =>
      ⟨_, _, repeatPasses_loopR214 (passParity policy C dataRows odd) (scatter map tx), rfl⟩⟩

/-- A loop follows a map that its passes follow. -/
theorem repeatPasses_map {n n' : Nat} {pass : BitVec n → BitVec n × Bool} {pass' : BitVec n' → BitVec n' × Bool}
    {f : BitVec n' → BitVec n} (h : ∀ v, pass (f v) = (f (pass' v).1, (pass' v).2)) (limit : Nat) (v : BitVec n') :
    (repeatPasses pass limit (f v)).1 = f (repeatPasses pass' limit v).1 := by
  induction limit generalizing v with
  | zero => rfl
  | succ limit ih =>
    rw [repeatPasses_succ, repeatPasses_succ, h]
    split
    · exact ih _
    · rfl

/-- A loop whose first pass reaches a matrix that the next one leaves alone ends there. -/
theorem repeatPasses_of_reaches {n : Nat} {pass : BitVec n → BitVec n × Bool} {m z : BitVec n} (limit : Nat)
    (hreach : (pass m).1 = z) (hz : pass z = (z, false)) : (repeatPasses pass (limit + 1) m).1 = z := by
  rw [repeatPasses_succ, hreach]
  split
  · exact repeatPasses_of_stable pass limit z hz
  · rfl

/-- A fold follows a map that each of its steps follows. -/
theorem foldl_map_of_step {α σ τ : Type} {l : List α} {f : σ → α → σ} {g : τ → α → τ} {h : σ → τ}
    (hstep : ∀ s, ∀ a ∈ l, g (h s) a = h (f s a)) (s : σ) : l.foldl g (h s) = h (l.foldl f s) := by
  induction l generalizing s with
  | nil => rfl
  | cons a l ih =>
    rw [List.foldl_cons, List.foldl_cons, hstep s a List.mem_cons_self]
    exact ih (fun s b hb => hstep s b (List.mem_cons_of_mem a hb)) _

/-- A fold none of whose steps changes the state leaves it. -/
theorem foldl_eq_of_fixed {α σ : Type} {l : List α} {f : σ → α → σ} {s : σ} (h : ∀ a ∈ l, f s a = s) :
    l.foldl f s = s := by
  induction l with
  | nil => rfl
  | cons a l ih =>
    rw [List.foldl_cons, h a List.mem_cons_self]
    exact ih fun b hb => h b (List.mem_cons_of_mem a hb)

/-- A fold with one step that can change the state takes that step. -/
theorem foldl_eq_of_single {α σ : Type} {l : List α} {f : σ → α → σ} {a : α} {s : σ} (hnd : l.Nodup) (ha : a ∈ l)
    (hbefore : ∀ b ∈ l, b ≠ a → f s b = s) (hafter : ∀ b ∈ l, b ≠ a → f (f s a) b = f s a) : l.foldl f s = f s a := by
  induction l with
  | nil => cases ha
  | cons b l ih =>
    obtain ⟨hb, hnd⟩ := List.nodup_cons.mp hnd
    rw [List.foldl_cons]
    by_cases hba : b = a
    · subst hba
      exact foldl_eq_of_fixed fun c hc => hafter c (List.mem_cons_of_mem b hc) fun h => hb (h ▸ hc)
    · rw [hbefore b List.mem_cons_self hba]
      exact ih hnd ((List.mem_cons.mp ha).resolve_left fun h => hba h.symm)
        (fun c hc => hbefore c (List.mem_cons_of_mem b hc)) fun c hc => hafter c (List.mem_cons_of_mem b hc)

/-- A fold of updates over the parts 0..n−1, each of which changes its own part alone, updates each of them. -/
theorem foldl_range_update {σ τ : Type} {get : σ → Nat → τ} {upd : σ → Nat → σ} {f : Nat → τ → τ} {size : Nat}
    (hupd : ∀ s i j, i < size → j < size → get (upd s i) j = if j = i then f i (get s i) else get s j) (s : σ) {n : Nat}
    (hn : n ≤ size) {j : Nat} (hj : j < size) :
    get ((List.range n).foldl upd s) j = if j < n then f j (get s j) else get s j := by
  induction n generalizing j with
  | zero => simp
  | succ n ih =>
    rw [List.range_succ, List.foldl_append, List.foldl_cons, List.foldl_nil, hupd _ n j (by omega) hj,
      ih (by omega) hj, ih (by omega) (by omega : n < size)]
    rcases Nat.lt_trichotomy j n with hlt | rfl | hgt
    · simp [Nat.ne_of_lt hlt, hlt, Nat.lt_succ_of_lt hlt]
    · simp
    · simp [Nat.ne_of_gt hgt, Nat.not_lt.mpr (Nat.le_of_lt hgt), Nat.not_lt.mpr (Nat.succ_le_of_lt hgt)]

end Sys2Proof.Machine
end

section
/-! Codes that correct one error (40_block_codes.md R105 to R107), the row and column codes of every BPTC: the bit their
decoder corrects is the one the reference passes of Safety search for. -/

namespace Sys2Proof.Machine

theorem weight_unitAt {n j : Nat} (hj : j < n) : weight (unitAt n j) = 1 := by
  have h := weight_xor_unitAt_of_set (b := unitAt n j) (j := j) (by simp [hj])
  rw [BitVec.xor_self, weight_zero] at h
  exact h.symm

theorem weight_unitAt_xor_unitAt {n i j : Nat} (hi : i < n) (hj : j < n) (hij : i ≠ j) :
    weight (unitAt n i ^^^ unitAt n j) = 2 := by
  have h := weight_xor_unitAt_of_set (b := unitAt n i ^^^ unitAt n j) (j := j) (by simp [hj, Ne.symm hij])
  rw [BitVec.xor_assoc, BitVec.xor_self, BitVec.xor_zero, weight_unitAt hi] at h
  exact h.symm

/-- A vector of weight at most 1 is zero or has one bit set. -/
theorem eq_unitAt_of_weight_le_one {n : Nat} {e : BitVec n} (h : weight e ≤ 1) :
    e = 0#n ∨ ∃ j, j < n ∧ e = unitAt n j := by
  rcases Nat.le_one_iff_eq_zero_or_eq_one.mp h with h | h
  · exact .inl (weight_eq_zero.mp h)
  · rw [weight_eq_card, Finset.card_eq_one] at h
    obtain ⟨j, hj⟩ := h
    have hbit : ∀ i, e.getMsbD i = true ↔ i = j := fun i => by rw [← mem_support, hj, Finset.mem_singleton]
    have hjn : j < n := by
      by_contra hge
      simpa [BitVec.getMsbD_of_ge e j (Nat.le_of_not_lt hge)] using (hbit j).mpr rfl
    refine .inr ⟨j, hjn, eq_of_bits fun i hi => ?_⟩
    rw [Bool.eq_iff_iff, hbit]
    simp [hi]

section congr
variable {row : BlockRow} {c d : Nat → Bool} (h : ∀ i, i < row.k + row.r → c i = d i)
include h

/-- Being a codeword depends on the n bits of the word alone. -/
theorem isCodeword_congr : IsCodeword row c ↔ IsCodeword row d := by
  have hparity : divisionParity row c = divisionParity row d := divisionParity_congr fun i hi => h i (by omega)
  refine forall_congr' fun j => imp_congr_right fun hj => ?_
  rw [hparity, h (row.k + j) (by omega)]

theorem codewordTest_congr : codewordTest row c = codewordTest row d := by
  have hiff := isCodeword_congr h
  rw [Bool.eq_iff_iff]
  simpa [codewordTest, IsCodeword] using hiff

theorem wrongBit_congr : wrongBit row c = wrongBit row d := by
  have hflip : ∀ j, codewordTest row (fun i => c i ^^ (i == j)) = codewordTest row fun i => d i ^^ (i == j) := fun j =>
    codewordTest_congr fun i hi => by rw [h i hi]
  simp only [wrongBit, codewordTest_congr h, hflip]

end congr

variable {k r : Nat}

/-- The decoder changes a word by what its syndrome says, so it commutes with adding a codeword. -/
theorem decodeBlock_xor_codeword (C : BlockCode k r) (c : BitVec (k + r)) {x : BitVec (k + r)} (hx : syndrome C x = 0#r) :
    decodeBlock C (c ^^^ x) = ((decodeBlock C c).1 ^^^ x, (decodeBlock C c).2) := by
  have hsyn : syndrome C (c ^^^ x) = syndrome C c := by rw [syndrome_xor, hx, BitVec.xor_zero]
  unfold decodeBlock
  rw [hsyn]
  split
  · rfl
  · cases errorPattern C (syndrome C c) with
    | none => rfl
    | some e =>
      simp only [Prod.mk.injEq, and_true]
      ac_rfl

/-- A decoder that counts no error leaves the word. -/
theorem decodeBlock_of_count_eq_zero {C : BlockCode k r} {c : BitVec (k + r)}
    (h : (decodeBlock C c).2.errorsCorrected = 0) : (decodeBlock C c).1 = c := by
  rcases decodeBlock_cases C c with ⟨-, hdec⟩ | ⟨-, e, -, hdec⟩ | ⟨-, -, hdec⟩
  · rw [hdec]
  · rw [hdec] at h ⊢
    rw [weight_eq_zero.mp h, BitVec.xor_zero]
  · rw [hdec]

/-- A decoder that counts an error leaves a codeword. -/
theorem syndrome_decodeBlock_of_count_pos {C : BlockCode k r} {c : BitVec (k + r)}
    (h : 0 < (decodeBlock C c).2.errorsCorrected) : syndrome C (decodeBlock C c).1 = 0#r := by
  rcases decodeBlock_cases C c with ⟨-, hdec⟩ | ⟨-, e, hpat, hdec⟩ | ⟨-, -, hdec⟩ <;> rw [hdec] at h ⊢
  · cases h
  · exact syndrome_xor_eq_zero.mpr (errorPattern_some hpat).2
  · cases h

theorem codewordTest_iff {row : BlockRow} {c : Nat → Bool} : codewordTest row c = true ↔ IsCodeword row c := by
  simp [codewordTest, IsCodeword]

/-- What the search for the wrong bit can answer. -/
theorem wrongBit_cases (row : BlockRow) (c : Nat → Bool) :
    (IsCodeword row c ∧ wrongBit row c = none) ∨
    (¬ IsCodeword row c ∧ ∃ j, j < row.k + row.r ∧ IsCodeword row (fun i => c i ^^ (i == j)) ∧ wrongBit row c = some j) ∨
    (¬ IsCodeword row c ∧ (∀ j, j < row.k + row.r → ¬ IsCodeword row fun i => c i ^^ (i == j)) ∧ wrongBit row c = none) := by
  by_cases hc : IsCodeword row c
  · exact .inl ⟨hc, by simp [wrongBit, codewordTest_iff.mpr hc]⟩
  · have hw : wrongBit row c =
        (List.range (row.k + row.r)).find? fun j => codewordTest row fun i => c i ^^ (i == j) := by
      simp [wrongBit, codewordTest_iff, hc]
    cases hfind : wrongBit row c with
    | some j =>
      rw [hw] at hfind
      exact .inr (.inl ⟨hc, j, List.mem_range.mp (List.mem_of_find?_eq_some hfind),
        codewordTest_iff.mp (List.find?_some hfind :), rfl⟩)
    | none =>
      rw [hw, List.find?_eq_none] at hfind
      exact .inr (.inr ⟨hc, fun j hj hcode => hfind j (List.mem_range.mpr hj) (codewordTest_iff.mpr hcode), rfl⟩)

namespace Realizes

variable {row : BlockRow} {C : BlockCode row.k row.r} (hC : Realizes row C)
include hC

theorem isCodeword_flip_iff (c : BitVec (row.k + row.r)) {j : Nat} :
    IsCodeword row (fun i => c.getMsbD i ^^ (i == j)) ↔ syndrome C (c ^^^ unitAt (row.k + row.r) j) = 0#row.r := by
  rw [← hC.isCodeword_iff]
  exact isCodeword_congr fun i hi => by rw [BitVec.getMsbD_xor, getMsbD_unitAt]; simp [hi]; rfl

/-- `isCodeword_iff` for the bits of the word, however they are read. -/
theorem isCodeword_iff_of_bits {c : BitVec (row.k + row.r)} {bits : Nat → Bool}
    (hbits : ∀ i, i < row.k + row.r → bits i = c.getMsbD i) : IsCodeword row bits ↔ syndrome C c = 0#row.r :=
  (isCodeword_congr hbits).trans (hC.isCodeword_iff c)

/-- The decoder of a code with t = 1 corrects the wrong bit, or nothing (40_block_codes.md R105 to R107). -/
theorem decodeBlock_wrongBit (ht : row.t = 1) {c : BitVec (row.k + row.r)} {bits : Nat → Bool}
    (hbits : ∀ i, i < row.k + row.r → bits i = c.getMsbD i) :
    (∃ j, j < row.k + row.r ∧ wrongBit row bits = some j ∧
      decodeBlock C c = (c ^^^ unitAt (row.k + row.r) j, ⟨row.k + row.r, 1, false⟩)) ∨
    (wrongBit row bits = none ∧ (decodeBlock C c).2.errorsCorrected = 0) := by
  obtain ⟨hradius, -, -, -, hsep⟩ := hC.agrees
  rw [wrongBit_congr hbits]
  rcases wrongBit_cases row fun i => c.getMsbD i with ⟨hc, hw⟩ | ⟨-, j, hj, hcode, hw⟩ | ⟨hc, hnone, hw⟩
  · exact .inr ⟨hw, by rw [decodeBlock_of_codeword C ((hC.isCodeword_iff c).mp hc)]⟩
  · have hweight := weight_unitAt hj
    refine .inl ⟨j, hj, hw, ?_⟩
    rw [decodeBlock_of_correctable hsep (by omega) ((hC.isCodeword_flip_iff c).mp hcode), hweight]
  · refine .inr ⟨hw, ?_⟩
    rw [decodeBlock_of_uncorrectable fun e he => ?_]
    rcases eq_unitAt_of_weight_le_one (show weight e ≤ 1 by omega) with rfl | ⟨j, hj, rfl⟩
    · rwa [BitVec.xor_zero, Ne, ← hC.isCodeword_iff]
    · rw [Ne, ← hC.isCodeword_flip_iff]
      exact hnone j hj

/-- One wrong bit of the zero word is corrected. -/
theorem decodeBlock_unitAt (ht : row.t = 1) {j : Nat} (hj : j < row.k + row.r) :
    decodeBlock C (unitAt (row.k + row.r) j) = (0#_, ⟨row.k + row.r, 1, false⟩) := by
  obtain ⟨hradius, -, -, -, hsep⟩ := hC.agrees
  have hweight := weight_unitAt hj
  rw [decodeBlock_of_correctable hsep (e := unitAt _ j) (by omega) (by simp), hweight, BitVec.xor_self]

end Realizes

theorem realizes_h1393 : Realizes rowH1393 h1393 :=
  ⟨(exec_of_holdsOperand · rfl rfl), (exec_of_holdsOperand · rfl rfl), (exec_of_holdsOperand · rfl rfl), by decide +kernel⟩

theorem realizes_h15113 : Realizes rowH15113 h15113 :=
  ⟨(exec_of_holdsOperand · rfl rfl), (exec_of_holdsOperand · rfl rfl), (exec_of_holdsOperand · rfl rfl), by decide +kernel⟩

theorem realizes_h16114 : Realizes rowH16114 h16114 :=
  ⟨(exec_of_holdsOperand · rfl rfl), (exec_of_holdsOperand · rfl rfl), (exec_of_holdsOperand · rfl rfl), by decide +kernel⟩

theorem realizes_h17123 : Realizes rowH17123 h17123 :=
  ⟨(exec_of_holdsOperand · rfl rfl), (exec_of_holdsOperand · rfl rfl), (exec_of_holdsOperand · rfl rfl), by decide +kernel⟩

end Sys2Proof.Machine
end

section
/-! The matrix of BPTC(196,96) by cells, rows and columns (41_bptc.md R202). -/

namespace Sys2Proof.Machine

theorem cell196_lt {a c : Nat} (ha : a < 13) (hc : c < 15) : cell196 a c < 196 := by
  unfold cell196
  omega

theorem cell196_ne_zero (a c : Nat) : 0 ≠ cell196 a c := by
  unfold cell196
  omega

theorem cell196_inj {a a' c c' : Nat} (hc : c < 15) (hc' : c' < 15) : cell196 a c = cell196 a' c' ↔ a = a' ∧ c = c' := by
  unfold cell196
  omega

/-- Every bit of the matrix but M[0] is a cell. -/
theorem exists_cell196 {p : Nat} (hp : p < 196) : p = 0 ∨ ∃ a c, a < 13 ∧ c < 15 ∧ p = cell196 a c := by
  unfold cell196
  by_cases h : p = 0
  · exact .inl h
  · exact .inr ⟨(p - 1) / 15, (p - 1) % 15, by omega, by omega, by omega⟩

/-- Two matrices with the same M[0] and the same columns are the same. -/
theorem eq_of_cols196 {m m' : BitVec 196} (h0 : m.getMsbD 0 = m'.getMsbD 0)
    (h : ∀ c, c < 15 → col196 m c = col196 m' c) : m = m' :=
  eq_of_bits fun p hp => by
    rcases exists_cell196 hp with rfl | ⟨a, c, ha, hc, rfl⟩
    · exact h0
    · simpa [ha] using congrArg (fun w => w.getMsbD a) (h c hc)

/-- Two matrices with the same M[0] and the same rows are the same. -/
theorem eq_of_rows196 {m m' : BitVec 196} (h0 : m.getMsbD 0 = m'.getMsbD 0)
    (h : ∀ a, a < 13 → row196 m a = row196 m' a) : m = m' :=
  eq_of_bits fun p hp => by
    rcases exists_cell196 hp with rfl | ⟨a, c, ha, hc, rfl⟩
    · exact h0
    · simpa [hc] using congrArg (fun w => w.getMsbD c) (h a ha)

theorem col196_xor (m m' : BitVec 196) (c : Nat) : col196 (m ^^^ m') c = col196 m c ^^^ col196 m' c :=
  eq_of_bits fun a ha => by simp [ha]

theorem row196_xor (m m' : BitVec 196) (a : Nat) : row196 (m ^^^ m') a = row196 m a ^^^ row196 m' a :=
  eq_of_bits fun c hc => by simp [hc]

@[simp] theorem col196_zero (c : Nat) : col196 0#196 c = 0#13 := eq_of_bits fun a _ => by simp

@[simp] theorem row196_zero (a : Nat) : row196 0#196 a = 0#15 := eq_of_bits fun c _ => by simp

/-- M[0] is in no column and no row (41_bptc.md R203). -/
@[simp] theorem col196_unused (c : Nat) : col196 (unitAt 196 0) c = 0#13 :=
  eq_of_bits fun a _ => by simp [cell196]

@[simp] theorem row196_unused (a : Nat) : row196 (unitAt 196 0) a = 0#15 :=
  eq_of_bits fun c _ => by simp [cell196]

theorem col196_unitAt_cell {a c c' : Nat} (hc : c < 15) (hc' : c' < 15) :
    col196 (unitAt 196 (cell196 a c)) c' = if c' = c then unitAt 13 a else 0#13 :=
  eq_of_bits fun a' ha' => by
    have hlt := cell196_lt ha' hc'
    by_cases h : c' = c <;> simp_all [cell196_inj]

theorem row196_unitAt_cell {a a' c : Nat} (ha' : a' < 13) (hc : c < 15) :
    row196 (unitAt 196 (cell196 a c)) a' = if a' = a then unitAt 15 c else 0#15 :=
  eq_of_bits fun c' hc' => by
    have hlt := cell196_lt ha' hc'
    by_cases h : a' = a <;> simp_all [cell196_inj]

theorem col196_setCol196 (m : BitVec 196) (w : BitVec 13) {c c' : Nat} (hc : c < 15) :
    col196 (setCol196 m c' w) c = if c = c' then w else col196 m c :=
  eq_of_bits fun a ha => by
    rw [getMsbD_col196, setCol196_cell m c' w ha hc]
    by_cases h : c = c' <;> simp [ha, h]

theorem row196_setRow196 (m : BitVec 196) (w : BitVec 15) {a a' : Nat} (ha : a < 13) :
    row196 (setRow196 m a' w) a = if a = a' then w else row196 m a :=
  eq_of_bits fun c hc => by
    rw [getMsbD_row196, setRow196_cell m a' w ha hc]
    by_cases h : a = a' <;> simp [hc, h]

@[simp] theorem setCol196_unused (m : BitVec 196) (c : Nat) (w : BitVec 13) :
    (setCol196 m c w).getMsbD 0 = m.getMsbD 0 := by
  simp [setCol196]

@[simp] theorem setRow196_unused (m : BitVec 196) (a : Nat) (w : BitVec 15) :
    (setRow196 m a w).getMsbD 0 = m.getMsbD 0 := by
  have hout : ¬ (cell196 a 0 ≤ 0 ∧ 0 < cell196 a 0 + 15) := by unfold cell196; omega
  rw [setRow196, getMsbD_setSlice, if_neg hout]
  rfl

/-- Changing a column is adding the change. -/
theorem setCol196_xor (m x : BitVec 196) {c : Nat} (w : BitVec 13) :
    setCol196 (m ^^^ x) c (w ^^^ col196 x c) = setCol196 m c w ^^^ x :=
  eq_of_cols196 (by simp) fun c' hc' => by
    rw [col196_xor, col196_setCol196 _ _ hc', col196_setCol196 _ _ hc', col196_xor]
    by_cases h : c' = c <;> simp [h]

theorem setRow196_xor (m x : BitVec 196) {a : Nat} (w : BitVec 15) :
    setRow196 (m ^^^ x) a (w ^^^ row196 x a) = setRow196 m a w ^^^ x :=
  eq_of_rows196 (by simp) fun a' ha' => by
    rw [row196_xor, row196_setRow196 _ _ ha', row196_setRow196 _ _ ha', row196_xor]
    by_cases h : a' = a <;> simp [h]

/-- Changing one bit of a column is changing that cell. -/
theorem setCol196_flip (m : BitVec 196) {a c : Nat} (hc : c < 15) :
    setCol196 m c (col196 m c ^^^ unitAt 13 a) = m ^^^ unitAt 196 (cell196 a c) :=
  eq_of_cols196 (by simp [cell196_ne_zero a c]) fun c' hc' => by
    rw [col196_setCol196 _ _ hc', col196_xor, col196_unitAt_cell hc hc']
    by_cases h : c' = c <;> simp [h]

theorem setRow196_flip (m : BitVec 196) {a c : Nat} (hc : c < 15) :
    setRow196 m a (row196 m a ^^^ unitAt 15 c) = m ^^^ unitAt 196 (cell196 a c) :=
  eq_of_rows196 (by simp [cell196_ne_zero a c]) fun a' ha' => by
    rw [row196_setRow196 _ _ ha', row196_xor, row196_unitAt_cell ha' hc]
    by_cases h : a' = a <;> simp [h]

/-- The transmit position of matrix bit `a` (41_bptc.md R207). -/
theorem idx196_getD {a : Nat} (ha : a < 196) : idx196.getD a 196 = a * 181 % 196 := by
  simp [idx196, ha]

/-- The deinterleaved matrix (41_bptc.md R207). -/
theorem getMsbD_gather_idx196 (tx : BitVec 196) {a : Nat} (ha : a < 196) :
    (gather idx196 tx).getMsbD a = tx.getMsbD (a * 181 % 196) := by
  rw [getMsbD_gather, idx196_getD ha]
  simp [ha]

theorem gather_xor {n : Nat} (idx : List Nat) (v w : BitVec n) : gather idx (v ^^^ w) = gather idx v ^^^ gather idx w :=
  eq_of_bits fun i hi => by simp [hi]

/-- A wrong transmit bit is a wrong matrix bit (41_bptc.md R207). -/
theorem gather_idx196_unitAt {a : Nat} (ha : a < 196) : gather idx196 (unitAt 196 (a * 181 % 196)) = unitAt 196 a :=
  eq_of_bits fun i hi => by
    have hlt : i * 181 % 196 < 196 := Nat.mod_lt _ (by decide)
    have hinj : i * 181 % 196 = a * 181 % 196 ↔ i = a := by omega
    simp [getMsbD_gather_idx196 _ hi, hi, hlt, hinj]

/-- The information bits of the first row begin at cell (0, 3) (41_bptc.md R203). -/
theorem infoPos196_first {i : Nat} (hi : i < 8) : infoPos196.getD i 0 = 4 + i :=
  (by decide +kernel : ∀ i < 8, infoPos196.getD i 0 = 4 + i) i hi

/-- Rows 1..8 hold eleven information bits each (41_bptc.md R203). -/
theorem infoPos196_rest {r c : Nat} (hr : r < 8) (hc : c < 11) :
    infoPos196.getD (8 + 11 * r + c) 0 = 1 + 15 * (r + 1) + c :=
  (by decide +kernel : ∀ r < 8, ∀ c < 11, infoPos196.getD (8 + 11 * r + c) 0 = 1 + 15 * (r + 1) + c) r hr c hc

theorem getMsbD_takeInfo196 (m : BitVec 196) {i : Nat} (hi : i < 96) :
    (takeInfo196 m).getMsbD i = m.getMsbD (infoPos196.getD i 0) := by
  simp [takeInfo196, hi]

theorem takeInfo196_xor (m m' : BitVec 196) : takeInfo196 (m ^^^ m') = takeInfo196 m ^^^ takeInfo196 m' :=
  eq_of_bits fun i hi => by simp [takeInfo196, hi]

/-- The positions of the information bits are cells of data rows (41_bptc.md R203). -/
theorem infoPos196_getD {i : Nat} (hi : i < 96) :
    4 ≤ infoPos196.getD i 0 ∧ infoPos196.getD i 0 < 132 ∧ infoPos196.idxOf (infoPos196.getD i 0) = i := by
  obtain ⟨hlen, hnd, hbound⟩ := infoPos196_distinct
  have hi' : i < infoPos196.length := hlen ▸ hi
  have hget : infoPos196.getD i 0 = infoPos196[i] := by simp [List.getD, hi']
  obtain ⟨hge, hlt⟩ := hbound _ (List.getElem_mem hi')
  rw [hget]
  exact ⟨hge, hlt, hnd.idxOf_getElem i hi'⟩

end Sys2Proof.Machine
end

section
/-! BPTC196.DEC (41_bptc.md R205, R206): its passes are the reference passes of Safety. -/

namespace Sys2Proof.Machine

/-- The bits of a column and of a row, as the rules index them (41_bptc.md R202). -/
theorem getMsbD_eq_col196 (m : BitVec 196) (c : Nat) {a : Nat} (ha : a < 13) :
    m.getMsbD (1 + 15 * a + c) = (col196 m c).getMsbD a := by
  simp [ha, cell196]

theorem getMsbD_eq_row196 (m : BitVec 196) (a : Nat) {c : Nat} (hc : c < 15) :
    m.getMsbD (1 + 15 * a + c) = (row196 m a).getMsbD c := by
  simp [hc, cell196]

/-- What the decoder of a column answers (40_block_codes.md R106). -/
theorem decodeBlock_col196 (m : BitVec 196) (c : Nat) :
    (∃ a, a < 13 ∧ wrongBit rowH1393 (fun a => m.getMsbD (1 + 15 * a + c)) = some a ∧
      decodeBlock h1393 (col196 m c) = (col196 m c ^^^ unitAt 13 a, ⟨13, 1, false⟩)) ∨
    (wrongBit rowH1393 (fun a => m.getMsbD (1 + 15 * a + c)) = none ∧
      (decodeBlock h1393 (col196 m c)).2.errorsCorrected = 0) :=
  realizes_h1393.decodeBlock_wrongBit rfl fun _ ha => getMsbD_eq_col196 m c ha

/-- What the decoder of a row answers (40_block_codes.md R106). -/
theorem decodeBlock_row196 (m : BitVec 196) (a : Nat) :
    (∃ c, c < 15 ∧ wrongBit rowH15113 (fun c => m.getMsbD (1 + 15 * a + c)) = some c ∧
      decodeBlock h15113 (row196 m a) = (row196 m a ^^^ unitAt 15 c, ⟨15, 1, false⟩)) ∨
    (wrongBit rowH15113 (fun c => m.getMsbD (1 + 15 * a + c)) = none ∧
      (decodeBlock h15113 (row196 m a)).2.errorsCorrected = 0) :=
  realizes_h15113.decodeBlock_wrongBit rfl fun _ hc => getMsbD_eq_row196 m a hc

/-- A column step corrects the wrong bit of its column (41_bptc.md R205). -/
theorem fixCol196_eq_columnStepR205 (st : BitVec 196 × Bool) {c : Nat} (hc : c < 15) :
    fixCol196 st c = columnStepR205 st c := by
  unfold fixCol196 columnStepR205
  rcases decodeBlock_col196 st.1 c with ⟨a, -, hw, hdec⟩ | ⟨hw, hcount⟩
  · rw [hw, hdec]
    exact congrArg (·, true) (setCol196_flip st.1 hc)
  · rw [hw]
    simp [hcount]

/-- A row step corrects the wrong bit of its row (41_bptc.md R205). -/
theorem fixRow196_eq_rowStepR205 (st : BitVec 196 × Bool) (a : Nat) :
    fixRow196 st a = rowStepR205 st a := by
  unfold fixRow196 rowStepR205
  rcases decodeBlock_row196 st.1 a with ⟨c, hc, hw, hdec⟩ | ⟨hw, hcount⟩
  · rw [hw, hdec]
    exact congrArg (·, true) (setRow196_flip st.1 hc)
  · rw [hw]
    simp [hcount]

/-- The passes of BPTC196.DEC are those of R205. -/
theorem pass196_eq_passR205 : pass196 = passR205 := by
  funext m
  have hcols : (List.range 15).foldl fixCol196 (m, false) = (List.range 15).foldl columnStepR205 (m, false) :=
    List.foldl_ext _ _ _ fun st c hc => fixCol196_eq_columnStepR205 st (List.mem_range.mp hc)
  unfold pass196 passR205
  rw [hcols]
  exact List.foldl_ext _ _ _ fun st a _ => fixRow196_eq_rowStepR205 st a

theorem isCodeword_col196_iff (m : BitVec 196) (c : Nat) :
    IsCodeword rowH1393 (fun a => m.getMsbD (1 + 15 * a + c)) ↔ syndrome h1393 (col196 m c) = 0#4 :=
  realizes_h1393.isCodeword_iff_of_bits fun _ ha => getMsbD_eq_col196 m c ha

theorem isCodeword_row196_iff (m : BitVec 196) (a : Nat) :
    IsCodeword rowH15113 (fun c => m.getMsbD (1 + 15 * a + c)) ↔ syndrome h15113 (row196 m a) = 0#4 :=
  realizes_h15113.isCodeword_iff_of_bits fun _ hc => getMsbD_eq_row196 m a hc

/-- The columns and the data rows of the matrix are codewords (41_bptc.md R202): the final test of R206. -/
def Consistent196 (m : BitVec 196) : Prop :=
  (∀ c, c < 15 → syndrome h1393 (col196 m c) = 0#4) ∧ ∀ a, a < 9 → syndrome h15113 (row196 m a) = 0#4

theorem inconsistent196_eq_false {m : BitVec 196} : inconsistent196 m = false ↔ Consistent196 m := by
  simp [inconsistent196, Consistent196]

/-- The matrix the loop of R205 leaves. -/
def final196 (m₀ : BitVec 196) : BitVec 196 := (repeatPasses pass196 passLimit m₀).1

theorem final196_loop (m₀ : BitVec 196) : ∃ passes, LoopR214 passR205 m₀ (final196 m₀) passes := by
  rw [← pass196_eq_passR205]
  exact ⟨_, repeatPasses_loopR214 pass196 m₀⟩

/-- BPTC196.DEC reads its result off the matrix the loop leaves (41_bptc.md R206). -/
theorem decode196_eq (tx : BitVec 196) : decode196 tx =
    (takeInfo196 (final196 (gather idx196 tx)),
      ⟨196, changed196 (final196 (gather idx196 tx)) (gather idx196 tx), inconsistent196 (final196 (gather idx196 tx))⟩) :=
  rfl

/-- Completion of BPTC196.DEC with a consistent matrix. -/
theorem bptc196Dec_completes {s : State} {tx : BitVec 196} (htx : HoldsOperand s tx)
    (hu : (decode196 tx).2.uncorrectable = false) :
    Completes (exec (.bptc196Dec 0#8 196#16) s) s (decode196 tx).1 196 (decode196 tx).2.errorsCorrected false := by
  rw [exec_of_holdsOperand (i := .bptc196Dec 0#8 196#16) htx rfl rfl]
  exact resultDecoded_completes tx s (by decide) (decode196_bounded tx) hu

theorem bptc196Dec_completesUncorrectable {s : State} {tx : BitVec 196} (htx : HoldsOperand s tx)
    (hu : (decode196 tx).2.uncorrectable = true) :
    CompletesUncorrectable (exec (.bptc196Dec 0#8 196#16) s) s (decode196 tx).1 196
      (decode196 tx).2.errorsCorrected := by
  rw [exec_of_holdsOperand (i := .bptc196Dec 0#8 196#16) htx rfl rfl]
  exact resultDecoded_completesUncorrectable tx s (by decide) (decode196_bounded tx) hu

/-- The information bits of a matrix, in the places of R203. -/
theorem takeInfo196_places (m : BitVec 196) :
    (∀ i, i < 8 → (takeInfo196 m).getMsbD i = m.getMsbD (4 + i)) ∧
      ∀ r c, r < 8 → c < 11 → (takeInfo196 m).getMsbD (8 + 11 * r + c) = m.getMsbD (1 + 15 * (r + 1) + c) :=
  ⟨fun i hi => by rw [getMsbD_takeInfo196 m (by omega), infoPos196_first hi],
    fun r c hr hc => by rw [getMsbD_takeInfo196 m (by omega), infoPos196_rest hr hc]⟩

/-- What a decoder puts out on every received vector: its record, and its bits wherever these are fixed (60_exceptions.md
R338). -/
theorem resultDecoded_reports {m n : Nat} (received : BitVec m) {decoded : BitVec n × FecResult} (s : State) (hn : n ≤ 196)
    (hfec : decoded.2.Bounded) :
    ∃ info : BitVec n, Completes (.next (resultDecoded received decoded s)) s info decoded.2.bitsChecked
        decoded.2.errorsCorrected decoded.2.uncorrectable ∧
      (decoded.2.uncorrectable = false ∨ s.params.bestEffort = .asDecided → info = decoded.1) := by
  cases hu : decoded.2.uncorrectable with
  | false => exact ⟨_, resultDecoded_completes received s hn hfec hu, fun _ => rfl⟩
  | true =>
    obtain ⟨info, hinfo, hdecided⟩ := resultDecoded_completesUncorrectable received s hn hfec hu
    exact ⟨info, hinfo, fun h => hdecided (h.resolve_left (by decide))⟩

theorem changed196_eq_countP (m m₀ : BitVec 196) :
    changed196 m m₀ = (List.range 195).countP fun a => m.getMsbD (a + 1) != m₀.getMsbD (a + 1) := by
  rw [changed196, List.countP_map]
  rfl

/-- Settles O27: the loop runs on the deinterleaved vector, and the outcome is read off the matrix it leaves. -/
theorem bptc196DecodeReportsItsMatrix : Obligations.Bptc196DecodeReportsItsMatrix := by
  intro s tx htx
  obtain ⟨passes, hloop⟩ := final196_loop (gather idx196 tx)
  obtain ⟨info, hexec, hinfo⟩ := resultDecoded_reports tx s (by decide) (decode196_bounded tx)
  rw [decode196_eq] at hexec hinfo
  refine ⟨gather idx196 tx, final196 (gather idx196 tx), passes, info, inconsistent196 (final196 (gather idx196 tx)),
    fun a ha => getMsbD_gather_idx196 tx ha, hloop, ?_, ?_, fun h => ?_⟩
  · rw [exec_of_holdsOperand (i := .bptc196Dec 0#8 196#16) htx rfl rfl, ← changed196_eq_countP]
    exact hexec
  · simp only [isCodeword_col196_iff, isCodeword_row196_iff]
    exact inconsistent196_eq_false
  · rw [hinfo h]
    exact takeInfo196_places _

end Sys2Proof.Machine
end

section
/-! BPTC196.ENC (41_bptc.md R203, R204): the matrix it interleaves is a product codeword that holds the information bits. -/

namespace Sys2Proof.Machine

theorem getMsbD_encodeBlock_data {k r : Nat} (C : BlockCode k r) (d : BitVec k) {i : Nat} (hi : i < k) :
    (encodeBlock C d).getMsbD i = d.getMsbD i := by
  simp [encodeBlock, BitVec.getMsbD_append, hi]

/-- The XOR of words. -/
def xorWords {n : Nat} (ws : List (BitVec n)) : BitVec n := ws.foldr (· ^^^ ·) 0#n

/-- A sum of codewords is a codeword. -/
theorem syndrome_xorWords {k r : Nat} (C : BlockCode k r) {ws : List (BitVec (k + r))}
    (h : ∀ w ∈ ws, syndrome C w = 0#r) : syndrome C (xorWords ws) = 0#r := by
  induction ws with
  | nil => exact syndrome_zero C
  | cons w ws ih =>
    obtain ⟨hw, hws⟩ := List.forall_mem_cons.mp h
    change syndrome C (w ^^^ xorWords ws) = 0#r
    rw [syndrome_xor, hw, ih hws, BitVec.xor_zero]

/-- The matrix of R204 after its rows. -/
def rowsEncoded196 (info : BitVec 96) : BitVec 196 := (List.range 9).foldl encodeRow196 (placeInfo196 info)

theorem row196_rowsEncoded196 (info : BitVec 96) {a : Nat} (ha : a < 9) :
    row196 (rowsEncoded196 info) a = encodeBlock h15113 (slice (row196 (placeInfo196 info) a) 0 11) := by
  have h := foldl_range_update (get := row196) (upd := encodeRow196)
    (f := fun _ w => encodeBlock h15113 (slice w 0 11)) (size := 13)
    (fun m i j _ hj => row196_setRow196 m _ hj) (placeInfo196 info) (n := 9) (by decide) (j := a) (by omega)
  rwa [if_pos ha] at h

theorem col196_matrix196 (info : BitVec 96) {c : Nat} (hc : c < 15) :
    col196 (matrix196 info) c = encodeBlock h1393 (slice (col196 (rowsEncoded196 info) c) 0 9) := by
  have h := foldl_range_update (get := col196) (upd := encodeCol196)
    (f := fun _ w => encodeBlock h1393 (slice w 0 9)) (size := 15)
    (fun m i j _ hj => col196_setCol196 m _ hj) (rowsEncoded196 info) (n := 15) (by decide) hc
  rwa [if_pos hc] at h

/-- The columns are encoded over rows that stay as they are. -/
theorem row196_matrix196 (info : BitVec 96) {a : Nat} (ha : a < 9) :
    row196 (matrix196 info) a = row196 (rowsEncoded196 info) a :=
  eq_of_bits fun c hc => by
    have hbit : (col196 (matrix196 info) c).getMsbD a = (col196 (rowsEncoded196 info) c).getMsbD a := by
      rw [col196_matrix196 info hc, getMsbD_encodeBlock_data h1393 _ ha]
      simp [ha]
    have ha' : a < 13 := by omega
    simpa [ha', hc] using hbit

/-- The columns and the data rows are codewords (41_bptc.md R204). -/
theorem matrix196_consistent (info : BitVec 96) : Consistent196 (matrix196 info) :=
  ⟨fun c hc => by rw [col196_matrix196 info hc]; exact syndrome_encodeBlock h1393 _,
    fun a ha => by rw [row196_matrix196 info ha, row196_rowsEncoded196 info ha]; exact syndrome_encodeBlock h15113 _⟩

theorem h1393_checks_lt {j i : Nat} (h : i ∈ h1393.checks.getD j []) : i < 9 := by
  have hall : ∀ is ∈ h1393.checks, ∀ i ∈ is, i < 9 := by decide
  rcases Nat.lt_or_ge j h1393.checks.length with hj | hj
  · rw [List.getD_eq_getElem _ _ hj] at h
    exact hall _ (List.getElem_mem hj) i h
  · rw [List.getD_eq_default _ _ hj] at h
    cases h

/-- A check row of a matrix with codeword columns is the sum of the data rows in its check equation. -/
theorem row196_check {m : BitVec 196} (hcol : ∀ c, c < 15 → syndrome h1393 (col196 m c) = 0#4) {j : Nat} (hj : j < 4) :
    row196 m (9 + j) = xorWords ((h1393.checks.getD j []).map (row196 m)) :=
  eq_of_bits fun c hc => by
    have hcheck : (slice (col196 m c) 9 4).getMsbD j = (parity h1393 (slice (col196 m c) 0 9)).getMsbD j :=
      congrArg (fun w => w.getMsbD j) ((syndrome_eq_zero h1393 (col196 m c)).mp (hcol c hc))
    have hsum : ∀ is : List Nat, (∀ i ∈ is, i < 9) →
        xorBits (slice (col196 m c) 0 9) is = (xorWords (is.map (row196 m))).getMsbD c := fun is his => by
      induction is with
      | nil => simp [xorWords]
      | cons i is ih =>
        obtain ⟨hi, his⟩ := List.forall_mem_cons.mp his
        have hi' : i < 13 := by omega
        rw [xorBits_cons, ih his]
        simp [xorWords, hi, hi', hc]
    rw [← hsum _ fun i => h1393_checks_lt]
    have hj' : 9 + j < 13 := by omega
    simpa [parity, hj, hj', hc] using hcheck

/-- Every row is a codeword, the check rows too: they are sums of data rows (41_bptc.md R204). -/
theorem row196_consistent {m : BitVec 196} (hm : Consistent196 m) {a : Nat} (ha : a < 13) :
    syndrome h15113 (row196 m a) = 0#4 := by
  obtain ⟨hcol, hrow⟩ := hm
  by_cases h : a < 9
  · exact hrow a h
  · obtain ⟨j, rfl⟩ : ∃ j, a = 9 + j := ⟨a - 9, by omega⟩
    rw [row196_check hcol (by omega)]
    refine syndrome_xorWords h15113 fun w hw => ?_
    obtain ⟨i, hi, rfl⟩ := List.mem_map.mp hw
    exact hrow i (h1393_checks_lt hi)

/-- An encoded row begins with what was placed in it. -/
theorem matrix196_data (info : BitVec 96) {a c : Nat} (ha : a < 9) (hc : c < 11) :
    (matrix196 info).getMsbD (1 + 15 * a + c) = (placeInfo196 info).getMsbD (1 + 15 * a + c) := by
  have hc' : c < 15 := by omega
  rw [getMsbD_eq_row196 _ a hc', getMsbD_eq_row196 _ a hc', row196_matrix196 info ha, row196_rowsEncoded196 info ha,
    getMsbD_encodeBlock_data h15113 _ hc]
  simp [hc]

theorem matrix196_unused (info : BitVec 96) : (matrix196 info).getMsbD 0 = (placeInfo196 info).getMsbD 0 := by
  have hrows : (rowsEncoded196 info).getMsbD 0 = (placeInfo196 info).getMsbD 0 :=
    List.foldlRecOn (motive := fun m : BitVec 196 => m.getMsbD 0 = _) _ _ rfl
      fun m hm a _ => (setRow196_unused m a _).trans hm
  exact List.foldlRecOn (motive := fun m : BitVec 196 => m.getMsbD 0 = _) _ _ hrows
    fun m hm c _ => (setCol196_unused m c _).trans hm

/-- M[0] and the reserved bits are written 0 (41_bptc.md R203). -/
theorem placeInfo196_reserved (info : BitVec 96) {a : Nat} (ha : a < 4) : (placeInfo196 info).getMsbD a = false := by
  obtain ⟨hlen, -, hbound⟩ := infoPos196_distinct
  have hidx : infoPos196.idxOf a = 96 := by
    rw [← hlen, List.idxOf_eq_length_iff]
    exact fun hmem => by have := (hbound a hmem).1; omega
  simp [placeInfo196, hidx]

theorem getMsbD_placeInfo196 (info : BitVec 96) {i : Nat} (hi : i < 96) :
    (placeInfo196 info).getMsbD (infoPos196.getD i 0) = info.getMsbD i := by
  obtain ⟨-, hlt, hidx⟩ := infoPos196_getD hi
  have hlt' : infoPos196.getD i 0 < 196 := by omega
  rw [placeInfo196, getMsbD_ofBits, hidx, decide_eq_true hlt', Bool.true_and]

theorem matrix196_reserved (info : BitVec 96) {a : Nat} (ha : a < 4) : (matrix196 info).getMsbD a = false := by
  cases a with
  | zero => rw [matrix196_unused, placeInfo196_reserved info ha]
  | succ a =>
    have h := matrix196_data info (a := 0) (c := a) (by decide) (by omega)
    rw [placeInfo196_reserved info (by omega)] at h
    rwa [show a + 1 = 1 + 15 * 0 + a by omega]

/-- The matrix holds the information bits where R203 puts them. -/
theorem matrix196_places (info : BitVec 96) :
    (∀ i, i < 8 → (matrix196 info).getMsbD (4 + i) = info.getMsbD i) ∧
      ∀ r c, r < 8 → c < 11 → (matrix196 info).getMsbD (1 + 15 * (r + 1) + c) = info.getMsbD (8 + 11 * r + c) := by
  refine ⟨fun i hi => ?_, fun r c hr hc => ?_⟩
  · have h := matrix196_data info (a := 0) (c := 3 + i) (by decide) (by omega)
    rw [show 1 + 15 * 0 + (3 + i) = 4 + i by omega] at h
    rw [h, ← infoPos196_first hi, getMsbD_placeInfo196 info (by omega)]
  · rw [matrix196_data info (by omega) hc, ← infoPos196_rest hr hc, getMsbD_placeInfo196 info (by omega)]

/-- What a decoder reads off the matrix is what the encoder placed in it. -/
theorem takeInfo196_matrix196 (info : BitVec 96) : takeInfo196 (matrix196 info) = info :=
  eq_of_bits fun i hi => by
    obtain ⟨hfirst, hrest⟩ := matrix196_places info
    obtain ⟨htakeFirst, htakeRest⟩ := takeInfo196_places (matrix196 info)
    by_cases h : i < 8
    · rw [htakeFirst i h, hfirst i h]
    · have hi' : 8 + 11 * ((i - 8) / 11) + (i - 8) % 11 = i := by omega
      rw [← hi', htakeRest _ _ (by omega) (by omega), hrest _ _ (by omega) (by omega)]

/-- BPTC196.ENC puts out the interleaved matrix (41_bptc.md R204). -/
theorem bptc196Enc_completes {s : State} {info : BitVec 96} (h : HoldsOperand s info) :
    Completes (exec (.bptc196Enc 0#8 96#16) s) s (encode196 info) 0 0 false := by
  rw [exec_of_holdsOperand (i := .bptc196Enc 0#8 96#16) h rfl rfl]
  exact resultPlain_completes (encode196 info) s (by decide)

/-- Settles O26. -/
theorem bptc196EncodeFillsTheProductCode : Obligations.Bptc196EncodeFillsTheProductCode := by
  intro s info hinfo
  have hm := matrix196_consistent info
  obtain ⟨hfirst, hrest⟩ := matrix196_places info
  refine ⟨encode196 info, matrix196 info, bptc196Enc_completes hinfo, fun a ha => ?_, fun a => matrix196_reserved info,
    hfirst, hrest, fun a ha => (isCodeword_row196_iff _ a).mpr (row196_consistent hm ha),
    fun c hc => (isCodeword_col196_iff _ c).mpr (hm.1 c hc)⟩
  rw [← getMsbD_gather_idx196 _ ha, encode196, deinterleave196]

end Sys2Proof.Machine
end

section
/-! What BPTC196.DEC does to wrong bits (41_bptc.md R215). Its loop commutes with adding a matrix of codewords, so only the
pattern of the wrong bits counts; a pattern within one column stays there, and its column alone tells what becomes of it. -/

namespace Sys2Proof.Machine

theorem Consistent196.xor {x y : BitVec 196} (hx : Consistent196 x) (hy : Consistent196 y) : Consistent196 (x ^^^ y) := by
  obtain ⟨hxc, hxr⟩ := hx
  obtain ⟨hyc, hyr⟩ := hy
  refine ⟨fun c hc => ?_, fun a ha => ?_⟩
  · rw [col196_xor]
    exact (syndrome_xor h1393 _ _).trans (by rw [hxc c hc, hyc c hc, BitVec.xor_self])
  · rw [row196_xor]
    exact (syndrome_xor h15113 _ _).trans (by rw [hxr a ha, hyr a ha, BitVec.xor_self])

theorem consistent196_zero : Consistent196 0#196 :=
  ⟨fun c _ => by rw [col196_zero]; exact syndrome_zero h1393, fun a _ => by rw [row196_zero]; exact syndrome_zero h15113⟩

/-- M[0] belongs to no row and no column (41_bptc.md R203). -/
theorem consistent196_unused : Consistent196 (unitAt 196 0) :=
  ⟨fun c _ => by rw [col196_unused]; exact syndrome_zero h1393,
    fun a _ => by rw [row196_unused]; exact syndrome_zero h15113⟩

section translation
variable {x : BitVec 196} (hx : Consistent196 x)
include hx

theorem fixCol196_xor (st : BitVec 196 × Bool) {c : Nat} (hc : c < 15) :
    fixCol196 (st.1 ^^^ x, st.2) c = ((fixCol196 st c).1 ^^^ x, (fixCol196 st c).2) := by
  have hdec : decodeBlock h1393 (col196 (st.1 ^^^ x) c) = _ :=
    (congrArg (decodeBlock h1393) (col196_xor st.1 x c)).trans (decodeBlock_xor_codeword h1393 (col196 st.1 c) (hx.1 c hc))
  unfold fixCol196
  simp only [hdec]
  split
  · exact congrArg (·, true) (setCol196_xor st.1 x _)
  · rfl

theorem fixRow196_xor (st : BitVec 196 × Bool) {a : Nat} (ha : a < 9) :
    fixRow196 (st.1 ^^^ x, st.2) a = ((fixRow196 st a).1 ^^^ x, (fixRow196 st a).2) := by
  have hdec : decodeBlock h15113 (row196 (st.1 ^^^ x) a) = _ :=
    (congrArg (decodeBlock h15113) (row196_xor st.1 x a)).trans
      (decodeBlock_xor_codeword h15113 (row196 st.1 a) (hx.2 a ha))
  unfold fixRow196
  simp only [hdec]
  split
  · exact congrArg (·, true) (setRow196_xor st.1 x _)
  · rfl

theorem pass196_xor (m : BitVec 196) : pass196 (m ^^^ x) = ((pass196 m).1 ^^^ x, (pass196 m).2) := by
  have hcols := foldl_map_of_step (l := List.range 15) (f := fixCol196) (g := fixCol196) (h := fun st => (st.1 ^^^ x, st.2))
    (fun st c hc => fixCol196_xor hx st (List.mem_range.mp hc)) (m, false)
  have hrows := foldl_map_of_step (l := List.range 9) (f := fixRow196) (g := fixRow196) (h := fun st => (st.1 ^^^ x, st.2))
    (fun st a ha => fixRow196_xor hx st (List.mem_range.mp ha)) ((List.range 15).foldl fixCol196 (m, false))
  unfold pass196
  rw [← hrows, ← hcols]

theorem final196_xor (m : BitVec 196) : final196 (m ^^^ x) = final196 m ^^^ x :=
  repeatPasses_map (f := (· ^^^ x)) (pass196_xor hx) passLimit m

theorem consistent196_xor_iff {m : BitVec 196} : Consistent196 (m ^^^ x) ↔ Consistent196 m :=
  ⟨fun h => by simpa [BitVec.xor_assoc] using h.xor hx, fun h => h.xor hx⟩

theorem inconsistent196_xor (m : BitVec 196) : inconsistent196 (m ^^^ x) = inconsistent196 m := by
  have h := consistent196_xor_iff hx (m := m)
  rw [← inconsistent196_eq_false, ← inconsistent196_eq_false] at h
  cases hm : inconsistent196 m <;> simpa [hm] using h

end translation

theorem changed196_xor (m m₀ x : BitVec 196) : changed196 (m ^^^ x) (m₀ ^^^ x) = changed196 m m₀ := by
  have hbit : ∀ a, ((m ^^^ x).getMsbD a ^^ (m₀ ^^^ x).getMsbD a) = (m.getMsbD a ^^ m₀.getMsbD a) := fun a => by
    rw [BitVec.getMsbD_xor, BitVec.getMsbD_xor]
    cases x.getMsbD a <;> simp
  simp only [changed196, hbit]

/-- The outcome of a decode of a codeword matrix `x` with the wrong bits `e`. -/
theorem decode196_of_errors {tx x e : BitVec 196} (hx : Consistent196 x) (htx : gather idx196 tx = e ^^^ x) :
    decode196 tx = (takeInfo196 (final196 e) ^^^ takeInfo196 x,
      ⟨196, changed196 (final196 e) e, inconsistent196 (final196 e)⟩) := by
  rw [decode196_eq, htx, final196_xor hx, takeInfo196_xor, changed196_xor, inconsistent196_xor hx]

/-- The count is the weight of the change when M[0] is not in it (41_bptc.md R206). -/
theorem changed196_eq_weight {m m₀ : BitVec 196} (h0 : (m ^^^ m₀).getMsbD 0 = false) :
    changed196 m m₀ = weight (m ^^^ m₀) := by
  rw [weight, List.range_succ_eq_map, List.countP_cons, h0, List.countP_map]
  simp only [changed196, List.countP_map, BitVec.getMsbD_xor]
  rfl

/-! #### At most one wrong bit in each column -/

theorem fixCol196_of_codeword {st : BitVec 196 × Bool} {c : Nat} (h : syndrome h1393 (col196 st.1 c) = 0#4) :
    fixCol196 st c = st := by
  unfold fixCol196
  rw [show decodeBlock h1393 (col196 st.1 c) = _ from decodeBlock_of_codeword h1393 h]
  rfl

theorem fixRow196_of_codeword {st : BitVec 196 × Bool} {a : Nat} (h : syndrome h15113 (row196 st.1 a) = 0#4) :
    fixRow196 st a = st := by
  unfold fixRow196
  rw [show decodeBlock h15113 (row196 st.1 a) = _ from decodeBlock_of_codeword h15113 h]
  rfl

/-- A pass leaves a consistent matrix. -/
theorem pass196_of_consistent {m : BitVec 196} (hm : Consistent196 m) : pass196 m = (m, false) := by
  obtain ⟨hcol, hrow⟩ := hm
  have hcols : (List.range 15).foldl fixCol196 (m, false) = (m, false) :=
    foldl_eq_of_fixed fun c hc => fixCol196_of_codeword (hcol c (List.mem_range.mp hc))
  have hrows : (List.range 9).foldl fixRow196 (m, false) = (m, false) :=
    foldl_eq_of_fixed fun a ha => fixRow196_of_codeword (hrow a (List.mem_range.mp ha))
  rw [pass196, hcols, hrows]

theorem fixCol196_unused (st : BitVec 196 × Bool) (c : Nat) : (fixCol196 st c).1.getMsbD 0 = st.1.getMsbD 0 := by
  unfold fixCol196
  simp only
  split
  · exact setCol196_unused st.1 c _
  · rfl

/-- A column step leaves the decoded word in its column, and the other columns. -/
theorem col196_fixCol196 (st : BitVec 196 × Bool) {c c' : Nat} (hc' : c' < 15) :
    col196 (fixCol196 st c).1 c' = if c' = c then (decodeBlock h1393 (col196 st.1 c)).1 else col196 st.1 c' := by
  unfold fixCol196
  simp only
  split
  · exact col196_setCol196 st.1 _ hc'
  · next hcount =>
    have hsame : (decodeBlock h1393 (col196 st.1 c)).1 = _ := decodeBlock_of_count_eq_zero (Nat.eq_zero_of_not_pos hcount)
    split
    · next h => rw [hsame, h]
    · rfl

/-- The column step decodes every column. -/
theorem col196_columnStep (m : BitVec 196) {c : Nat} (hc : c < 15) :
    col196 ((List.range 15).foldl fixCol196 (m, false)).1 c = (decodeBlock h1393 (col196 m c)).1 := by
  have h := foldl_range_update (get := fun st : BitVec 196 × Bool => col196 st.1) (upd := fixCol196)
    (f := fun _ v => (decodeBlock h1393 v).1) (size := 15) (fun st i j _ hj => col196_fixCol196 st hj) (m, false)
    (n := 15) (by decide) hc
  rwa [if_pos hc] at h

theorem columnStep_unused (m : BitVec 196) :
    ((List.range 15).foldl fixCol196 (m, false)).1.getMsbD 0 = m.getMsbD 0 :=
  List.foldlRecOn (motive := fun st : BitVec 196 × Bool => st.1.getMsbD 0 = _) _ _ rfl
    fun st hst c _ => (fixCol196_unused st c).trans hst

/-- A column with at most one wrong bit is decoded to zero. -/
theorem decodeBlock_h1393_of_weight_le_one {v : BitVec 13} (h : weight v ≤ 1) : (decodeBlock h1393 v).1 = 0#13 := by
  rcases eq_unitAt_of_weight_le_one h with rfl | ⟨j, hj, rfl⟩
  · exact congrArg Prod.fst (decodeBlock_of_codeword h1393 (syndrome_zero h1393))
  · exact congrArg Prod.fst (realizes_h1393.decodeBlock_unitAt rfl hj)

/-- Wrong bits in different columns are all corrected by the first column step. -/
theorem final196_of_weight_le_one {e : BitVec 196} (h0 : e.getMsbD 0 = false)
    (hcols : ∀ c, c < 15 → weight (col196 e c) ≤ 1) : final196 e = 0#196 := by
  have hstep : ((List.range 15).foldl fixCol196 (e, false)).1 = 0#196 :=
    eq_of_cols196 (by rw [columnStep_unused, h0]; simp) fun c hc => by
      rw [col196_columnStep e hc, decodeBlock_h1393_of_weight_le_one (hcols c hc), col196_zero]
  have hrows : ∀ a ∈ List.range 9, fixRow196 ((List.range 15).foldl fixCol196 (e, false)) a = _ := fun a _ =>
    fixRow196_of_codeword (by rw [hstep, row196_zero]; exact syndrome_zero h15113)
  refine repeatPasses_of_reaches 4 ?_ (pass196_of_consistent consistent196_zero)
  rw [pass196, foldl_eq_of_fixed hrows, hstep]

/-! #### Wrong bits in one column -/

/-- The matrix with `v` in column `c` and zeros elsewhere. -/
def inColumn196 (c : Nat) (v : BitVec 13) : BitVec 196 := setCol196 0#196 c v

theorem col196_inColumn196 {c c' : Nat} (v : BitVec 13) (hc' : c' < 15) :
    col196 (inColumn196 c v) c' = if c' = c then v else 0#13 := by
  rw [inColumn196, col196_setCol196 _ _ hc', col196_zero]

@[simp] theorem inColumn196_unused (c : Nat) (v : BitVec 13) : (inColumn196 c v).getMsbD 0 = false := by
  simp [inColumn196]

theorem getMsbD_inColumn196 {c a c' : Nat} (v : BitVec 13) (ha : a < 13) (hc' : c' < 15) :
    (inColumn196 c v).getMsbD (cell196 a c') = (decide (c' = c) && v.getMsbD a) := by
  rw [inColumn196, setCol196_cell _ _ _ ha hc']
  by_cases h : c' = c <;> simp [h]

theorem inColumn196_xor (c : Nat) (v w : BitVec 13) : inColumn196 c (v ^^^ w) = inColumn196 c v ^^^ inColumn196 c w :=
  eq_of_cols196 (by simp) fun c' hc' => by
    rw [col196_xor, col196_inColumn196 _ hc', col196_inColumn196 _ hc', col196_inColumn196 _ hc']
    split <;> simp

@[simp] theorem inColumn196_zero (c : Nat) : inColumn196 c 0#13 = 0#196 :=
  eq_of_cols196 (by simp) fun c' hc' => by simp [col196_inColumn196 _ hc']

theorem inColumn196_unitAt (a : Nat) {c : Nat} (hc : c < 15) : inColumn196 c (unitAt 13 a) = unitAt 196 (cell196 a c) :=
  eq_of_cols196 (by simp [cell196_ne_zero a c]) fun c' hc' => by
    rw [col196_inColumn196 _ hc', col196_unitAt_cell hc hc']

theorem row196_inColumn196 {a c : Nat} (v : BitVec 13) (ha : a < 13) :
    row196 (inColumn196 c v) a = if v.getMsbD a then unitAt 15 c else 0#15 :=
  eq_of_bits fun c' hc' => by
    rw [getMsbD_row196, getMsbD_inColumn196 v ha hc']
    cases v.getMsbD a <;> simp [hc']

/-- What a column step does to the wrong bits of its column. -/
def decodeColumn (v : BitVec 13) : BitVec 13 × Bool :=
  if 0 < (decodeBlock h1393 v).2.errorsCorrected then ((decodeBlock h1393 v).1, true) else (v, false)

/-- What the step of row `a` does to them: the wrong bit of the row, if there is one, is its only one. -/
def clearDataBit (st : BitVec 13 × Bool) (a : Nat) : BitVec 13 × Bool :=
  if st.1.getMsbD a then (st.1 ^^^ unitAt 13 a, true) else st

/-- What a pass does to the wrong bits of one column. -/
def columnPass (v : BitVec 13) : BitVec 13 × Bool := (List.range 9).foldl clearDataBit (decodeColumn v)

/-- What the loop leaves of them. -/
def columnFinal (v : BitVec 13) : BitVec 13 := (repeatPasses columnPass passLimit v).1

theorem fixCol196_inColumn196_same (v : BitVec 13) {c : Nat} (hc : c < 15) :
    fixCol196 (inColumn196 c v, false) c = (inColumn196 c (decodeColumn v).1, (decodeColumn v).2) := by
  have hcol : col196 (inColumn196 c v) c = v := by rw [col196_inColumn196 v hc, if_pos rfl]
  have hset : ∀ w, setCol196 (inColumn196 c v) c w = inColumn196 c w := fun w =>
    eq_of_cols196 (by simp) fun c' hc' => by
      rw [col196_setCol196 _ _ hc', col196_inColumn196 _ hc', col196_inColumn196 _ hc']
      split <;> rfl
  unfold fixCol196 decodeColumn
  simp only [hcol, hset]
  split <;> rfl

theorem fixCol196_inColumn196_other (v : BitVec 13) (fixing : Bool) {c c' : Nat} (hc' : c' < 15) (hne : c' ≠ c) :
    fixCol196 (inColumn196 c v, fixing) c' = (inColumn196 c v, fixing) :=
  fixCol196_of_codeword (by rw [col196_inColumn196 v hc', if_neg hne]; exact syndrome_zero h1393)

theorem fixRow196_inColumn196 (st : BitVec 13 × Bool) {a c : Nat} (ha : a < 9) (hc : c < 15) :
    fixRow196 (inColumn196 c st.1, st.2) a = (inColumn196 c (clearDataBit st a).1, (clearDataBit st a).2) := by
  have hrow := row196_inColumn196 (c := c) st.1 (by omega : a < 13)
  unfold clearDataBit
  split
  · next hbit =>
    rw [if_pos hbit] at hrow
    have hset : setRow196 (inColumn196 c st.1) a 0#15 = inColumn196 c (st.1 ^^^ unitAt 13 a) := by
      have h := setRow196_flip (inColumn196 c st.1) (a := a) hc
      rwa [hrow, BitVec.xor_self, ← inColumn196_unitAt a hc, ← inColumn196_xor] at h
    unfold fixRow196
    simp only [hrow, show decodeBlock h15113 (unitAt 15 c) = _ from realizes_h15113.decodeBlock_unitAt rfl hc]
    exact congrArg (·, true) hset
  · next hbit =>
    rw [if_neg hbit] at hrow
    exact fixRow196_of_codeword (by rw [hrow]; exact syndrome_zero h15113)

/-- A pass keeps the wrong bits in their column. -/
theorem pass196_inColumn196 {c : Nat} (hc : c < 15) (v : BitVec 13) :
    pass196 (inColumn196 c v) = (inColumn196 c (columnPass v).1, (columnPass v).2) := by
  have hcols : (List.range 15).foldl fixCol196 (inColumn196 c v, false) =
      (inColumn196 c (decodeColumn v).1, (decodeColumn v).2) := by
    rw [← fixCol196_inColumn196_same v hc]
    refine foldl_eq_of_single List.nodup_range (List.mem_range.mpr hc) (fun c' hc' hne => ?_) fun c' hc' hne => ?_
    · exact fixCol196_inColumn196_other v false (List.mem_range.mp hc') hne
    · rw [fixCol196_inColumn196_same v hc]
      exact fixCol196_inColumn196_other _ _ (List.mem_range.mp hc') hne
  unfold pass196 columnPass
  rw [hcols]
  exact foldl_map_of_step (h := fun st : BitVec 13 × Bool => (inColumn196 c st.1, st.2))
    (fun st a ha => fixRow196_inColumn196 st (List.mem_range.mp ha) hc) (decodeColumn v)

theorem final196_inColumn196 {c : Nat} (hc : c < 15) (v : BitVec 13) :
    final196 (inColumn196 c v) = inColumn196 c (columnFinal v) :=
  repeatPasses_map (pass196_inColumn196 hc) passLimit v

theorem weight_inColumn196 {c : Nat} (hc : c < 15) (v : BitVec 13) : weight (inColumn196 c v) = weight v := by
  have himage : support (inColumn196 c v) = (support v).image (cell196 · c) := by
    ext p
    rw [mem_support, Finset.mem_image]
    refine ⟨fun hp => ?_, fun ⟨a, ha, hp⟩ => ?_⟩
    · have hlt : p < 196 := by
        by_contra hge
        simp [BitVec.getMsbD_of_ge _ _ (Nat.le_of_not_lt hge)] at hp
      rcases exists_cell196 hlt with rfl | ⟨a, c', ha, hc', rfl⟩
      · simp at hp
      · rw [getMsbD_inColumn196 v ha hc', Bool.and_eq_true, decide_eq_true_eq] at hp
        obtain ⟨rfl, hv⟩ := hp
        exact ⟨a, mem_support.mpr hv, rfl⟩
    · have hlt : a < 13 := by
        by_contra hge
        simp [BitVec.getMsbD_of_ge v a (Nat.le_of_not_lt hge)] at ha
      rw [← hp, getMsbD_inColumn196 v hlt hc]
      simpa using ha
  rw [weight_eq_card, weight_eq_card, himage,
    Finset.card_image_of_injective _ fun a a' h => ((cell196_inj hc hc).mp h).1]

/-- The count of a decode whose wrong bits are in one column. -/
theorem changed196_inColumn196 {c : Nat} (hc : c < 15) (w v : BitVec 13) :
    changed196 (inColumn196 c w) (inColumn196 c v) = weight (w ^^^ v) := by
  rw [changed196_eq_weight (by simp), ← inColumn196_xor, weight_inColumn196 hc]

theorem inconsistent196_inColumn196 {c : Nat} (hc : c < 15) {v : BitVec 13} (hv : syndrome h1393 v ≠ 0#4) :
    inconsistent196 (inColumn196 c v) = true := by
  rw [← Bool.not_eq_false, inconsistent196_eq_false]
  intro h
  have hcol := h.1 c hc
  rw [col196_inColumn196 v hc, if_pos rfl] at hcol
  exact hv hcol

/-- Wrong bits in check rows are no information bits. -/
theorem takeInfo196_inColumn196 (c : Nat) {v : BitVec 13} (hv : ∀ a, a < 9 → v.getMsbD a = false) :
    takeInfo196 (inColumn196 c v) = 0#96 :=
  eq_of_bits fun i hi => by
    obtain ⟨hge, hlt, -⟩ := infoPos196_getD hi
    have hrow : (infoPos196.getD i 0 - 1) / 15 < 9 := by omega
    rw [getMsbD_takeInfo196 _ hi, inColumn196, setCol196, getMsbD_ofBits, hv _ hrow]
    simp

end Sys2Proof.Machine
end

section
/-! Round trip, single errors and pairs of errors of BPTC(196,96) (41_bptc.md R215). -/

namespace Sys2Proof.Machine

/-- The matrix is a product codeword that holds the information bits. -/
def Carries196 (info : BitVec 96) (x : BitVec 196) : Prop := Consistent196 x ∧ takeInfo196 x = info

theorem matrix196_carries (info : BitVec 96) : Carries196 info (matrix196 info) :=
  ⟨matrix196_consistent info, takeInfo196_matrix196 info⟩

/-- It carries them with any M[0] (41_bptc.md R203). -/
theorem Carries196.unused {info : BitVec 96} {x : BitVec 196} (h : Carries196 info x) :
    Carries196 info (unitAt 196 0 ^^^ x) := by
  obtain ⟨hx, hinfo⟩ := h
  refine ⟨consistent196_unused.xor hx, ?_⟩
  have hzero : takeInfo196 (unitAt 196 0) = 0#96 := eq_of_bits fun i hi => by
    obtain ⟨hge, -, -⟩ := infoPos196_getD hi
    have hne : infoPos196.getD i 0 ≠ 0 := by omega
    rw [getMsbD_takeInfo196 _ hi, getMsbD_unitAt, decide_eq_false hne]
    simp
  rw [takeInfo196_xor, hzero, hinfo, BitVec.zero_xor]

/-- The wrong bits `e` in a received vector that the loop takes away are counted, and nothing else is wrong. -/
theorem bptc196Dec_corrects {s : State} {tx x e : BitVec 196} {info : BitVec 96} (htx : HoldsOperand s tx)
    (hx : Carries196 info x) (he : gather idx196 tx = e ^^^ x) (h0 : e.getMsbD 0 = false) (hfinal : final196 e = 0#196) :
    Completes (exec (.bptc196Dec 0#8 196#16) s) s info 196 (weight e) false := by
  obtain ⟨hcons, hinfo⟩ := hx
  have hdec := decode196_of_errors hcons he
  rw [hfinal] at hdec
  have hout : (decode196 tx).1 = info := by
    have hzero : takeInfo196 0#196 = 0#96 := eq_of_bits fun i _ => by simp [takeInfo196]
    rw [hdec, hzero, hinfo, BitVec.zero_xor]
  have hcount : (decode196 tx).2.errorsCorrected = weight e := by
    rw [hdec, changed196_eq_weight (by simpa using h0), BitVec.zero_xor]
  have hunc : (decode196 tx).2.uncorrectable = false := by
    rw [hdec]
    exact inconsistent196_eq_false.mpr consistent196_zero
  have h := bptc196Dec_completes htx hunc
  rwa [hout, hcount] at h

/-- The received matrix of an encoded vector with wrong transmit bits. -/
theorem gather_encode196_xor (info : BitVec 96) (err : BitVec 196) :
    gather idx196 (encode196 info ^^^ err) = gather idx196 err ^^^ matrix196 info := by
  rw [gather_xor, encode196, deinterleave196, BitVec.xor_comm]

/-- Settles O28. -/
theorem bptc196RoundTrip : Obligations.Bptc196RoundTrip := by
  intro s info hinfo
  refine ⟨encode196 info, bptc196Enc_completes hinfo, fun s' htx => ?_⟩
  have he : gather idx196 (encode196 info) = 0#196 ^^^ matrix196 info := by
    rw [encode196, deinterleave196, BitVec.zero_xor]
  have h := bptc196Dec_corrects htx (matrix196_carries info) he (by simp)
    (final196_of_weight_le_one (by simp) fun c _ => by simp)
  rwa [weight_zero] at h

/-- One wrong cell is corrected. -/
theorem final196_unitAt {p : Nat} (hp : p ≠ 0) (hlt : p < 196) : final196 (unitAt 196 p) = 0#196 := by
  refine final196_of_weight_le_one (by simp [Ne.symm hp]) fun c' hc' => ?_
  obtain ⟨a, c, ha, hc, rfl⟩ := (exists_cell196 hlt).resolve_left hp
  rw [col196_unitAt_cell hc hc']
  split
  · rw [weight_unitAt ha]
  · simp

theorem bptc196Dec_corrects_one {s : State} {tx x : BitVec 196} {info : BitVec 96} {p : Nat} (htx : HoldsOperand s tx)
    (hx : Carries196 info x) (hp : p ≠ 0) (hlt : p < 196) (he : gather idx196 tx = unitAt 196 p ^^^ x) :
    Completes (exec (.bptc196Dec 0#8 196#16) s) s info 196 1 false := by
  have h := bptc196Dec_corrects htx hx he (by simp [Ne.symm hp]) (final196_unitAt hp hlt)
  rwa [weight_unitAt hlt] at h

/-- Settles O29: a wrong transmit bit is one wrong matrix bit, and M[0] is no cell. -/
theorem bptc196CorrectsEverySingleError : Obligations.Bptc196CorrectsEverySingleError := by
  intro s info hinfo
  refine ⟨encode196 info, bptc196Enc_completes hinfo, fun s' j hj htx => ?_⟩
  obtain ⟨p, hp, rfl⟩ : ∃ p, p < 196 ∧ j = p * 181 % 196 := ⟨j * 13 % 196, by omega, by omega⟩
  have he := gather_encode196_xor info (unitAt 196 (p * 181 % 196))
  rw [gather_idx196_unitAt hp] at he
  have hcarries := matrix196_carries info
  by_cases h0 : p = 0
  · subst h0
    have h := bptc196Dec_corrects htx hcarries.unused (e := 0#196) (by rw [he, BitVec.zero_xor]) (by simp)
      (final196_of_weight_le_one (by simp) fun c _ => by simp)
    rwa [weight_zero] at h
  · rw [if_neg (by omega)]
    exact bptc196Dec_corrects_one htx hcarries h0 hp he

/-- Two wrong cells in different columns are corrected. -/
theorem final196_of_columns_ne {a b c d : Nat} (ha : a < 13) (hb : b < 13) (hc : c < 15) (hd : d < 15) (hcd : c ≠ d) :
    final196 (unitAt 196 (cell196 a c) ^^^ unitAt 196 (cell196 b d)) = 0#196 := by
  refine final196_of_weight_le_one (by simp [cell196_ne_zero a c, cell196_ne_zero b d]) fun c' hc' => ?_
  rw [col196_xor, col196_unitAt_cell hc hc', col196_unitAt_cell hd hc']
  by_cases h : c' = c
  · rw [if_pos h, if_neg (h ▸ hcd), BitVec.xor_zero, weight_unitAt ha]
  · rw [if_neg h, BitVec.zero_xor]
    split
    · rw [weight_unitAt hb]
    · simp

theorem inColumn196_pair (a b : Nat) {c : Nat} (hc : c < 15) :
    inColumn196 c (unitAt 13 a ^^^ unitAt 13 b) = unitAt 196 (cell196 a c) ^^^ unitAt 196 (cell196 b c) := by
  rw [inColumn196_xor, inColumn196_unitAt a hc, inColumn196_unitAt b hc]

/-- The pairs of rows whose two wrong bits in one column are not corrected (41_bptc.md R215). -/
def failingRowPairs : List (Nat × Nat) :=
  [(3, 9), (6, 9), (4, 10), (6, 10), (7, 10), (9, 10), (3, 11), (7, 11), (8, 11), (9, 11), (10, 11), (4, 12), (8, 12),
    (9, 12), (10, 12), (11, 12)]

/-- What the loop leaves of two wrong bits in one column: nothing, or, in a failing pair, wrong bits in check rows alone. -/
theorem columnFinal_pair {a b : Nat} (hab : a < b) (hb : b < 13) :
    if (a, b) ∈ failingRowPairs then
      syndrome h1393 (columnFinal (unitAt 13 a ^^^ unitAt 13 b)) ≠ 0#4 ∧
        (∀ i, i < 9 → (columnFinal (unitAt 13 a ^^^ unitAt 13 b)).getMsbD i = false) ∧
        (weight (columnFinal (unitAt 13 a ^^^ unitAt 13 b) ^^^ (unitAt 13 a ^^^ unitAt 13 b)) = 0 ∨
          weight (columnFinal (unitAt 13 a ^^^ unitAt 13 b) ^^^ (unitAt 13 a ^^^ unitAt 13 b)) = 2)
    else columnFinal (unitAt 13 a ^^^ unitAt 13 b) = 0#13 := by
  revert a
  revert b
  decide +kernel

theorem final196_of_columns_eq {a b c : Nat} (hab : a < b) (hb : b < 13) (hc : c < 15)
    (hpair : (a, b) ∉ failingRowPairs) :
    final196 (unitAt 196 (cell196 a c) ^^^ unitAt 196 (cell196 b c)) = 0#196 := by
  have h := columnFinal_pair hab hb
  rw [if_neg hpair] at h
  rw [← inColumn196_pair a b hc, final196_inColumn196 hc, h, inColumn196_zero]

theorem bptc196Dec_corrects_two {s : State} {tx x : BitVec 196} {info : BitVec 96} {p q : Nat} (htx : HoldsOperand s tx)
    (hx : Carries196 info x) (hp : 0 < p) (hpq : p < q) (hlt : q < 196)
    (he : gather idx196 tx = unitAt 196 p ^^^ unitAt 196 q ^^^ x)
    (hfinal : final196 (unitAt 196 p ^^^ unitAt 196 q) = 0#196) :
    Completes (exec (.bptc196Dec 0#8 196#16) s) s info 196 2 false := by
  have h := bptc196Dec_corrects htx hx he (by simp [Nat.ne_of_lt hp, Nat.ne_of_lt (Nat.lt_trans hp hpq)]) hfinal
  rwa [weight_unitAt_xor_unitAt (Nat.lt_trans hpq hlt) hlt (Nat.ne_of_lt hpq)] at h

/-- The received matrix with two wrong transmit bits. -/
theorem gather_encode196_pair (info : BitVec 96) {p q : Nat} (hp : p < 196) (hq : q < 196) :
    gather idx196 (encode196 info ^^^ unitAt 196 (p * 181 % 196) ^^^ unitAt 196 (q * 181 % 196)) =
      unitAt 196 p ^^^ unitAt 196 q ^^^ matrix196 info := by
  rw [BitVec.xor_assoc, gather_encode196_xor, gather_xor, gather_idx196_unitAt hp, gather_idx196_unitAt hq]

/-- Settles O55. -/
theorem bptc196CorrectsTwoErrors : Obligations.Bptc196CorrectsTwoErrors := by
  intro s info hinfo
  refine ⟨encode196 info, bptc196Enc_completes hinfo, fun s' p q hpq hq htx => ?_⟩
  have he := gather_encode196_pair info (Nat.lt_trans hpq hq) hq
  have hcarries := matrix196_carries info
  refine ⟨?_, fun hp hplaces => ?_⟩
  · rintro rfl
    refine bptc196Dec_corrects_one htx hcarries.unused (Nat.ne_of_gt hpq) hq ?_
    rw [he, BitVec.xor_comm (unitAt 196 0), BitVec.xor_assoc]
  · refine bptc196Dec_corrects_two htx hcarries hp hpq hq he ?_
    obtain ⟨a, c, ha, hc, rfl⟩ := (exists_cell196 (Nat.lt_trans hpq hq)).resolve_left (by omega)
    obtain ⟨b, d, hb, hd, rfl⟩ := (exists_cell196 hq).resolve_left (by omega)
    by_cases hcd : c = d
    · subst hcd
      unfold cell196 at hpq hplaces
      have hb9 : b < 9 := by omega
      refine final196_of_columns_eq (by omega) hb hc fun hmem => ?_
      have hcheck : 9 ≤ b := (by decide : ∀ pair ∈ failingRowPairs, 9 ≤ pair.2) _ hmem
      omega
    · exact final196_of_columns_ne ha hb hc hd hcd

/-- The outcome of a failing pair: the information bits right, uncorrectable, a count of 0 or 2. -/
theorem bptc196Dec_failing {s : State} {tx x : BitVec 196} {info : BitVec 96} {a b c : Nat} (htx : HoldsOperand s tx)
    (hx : Carries196 info x) (hab : a < b) (hb : b < 13) (hc : c < 15) (hpair : (a, b) ∈ failingRowPairs)
    (he : gather idx196 tx = unitAt 196 (cell196 a c) ^^^ unitAt 196 (cell196 b c) ^^^ x) :
    CompletesUncorrectable (exec (.bptc196Dec 0#8 196#16) s) s info 196 0 ∨
      CompletesUncorrectable (exec (.bptc196Dec 0#8 196#16) s) s info 196 2 := by
  obtain ⟨hcons, hinfo⟩ := hx
  have h := columnFinal_pair hab hb
  rw [if_pos hpair] at h
  obtain ⟨hsyn, hdata, hcount⟩ := h
  rw [← inColumn196_pair a b hc] at he
  have hdec := decode196_of_errors hcons he
  rw [final196_inColumn196 hc, takeInfo196_inColumn196 c hdata, changed196_inColumn196 hc,
    inconsistent196_inColumn196 hc hsyn, hinfo, BitVec.zero_xor] at hdec
  have hexec := bptc196Dec_completesUncorrectable htx (congrArg (fun d => d.2.uncorrectable) hdec)
  rw [hdec] at hexec
  rcases hcount with hcount | hcount <;> rw [hcount] at hexec
  · exact .inl hexec
  · exact .inr hexec

/-- Settles O56. -/
theorem bptc196CheckRowPairs : Obligations.Bptc196CheckRowPairs := by
  refine ⟨failingRowPairs, rfl, by decide, by decide, fun s info hinfo =>
    ⟨encode196 info, bptc196Enc_completes hinfo, fun s' c a b hc hab _ hb htx => ?_⟩⟩
  have ha : a < 13 := Nat.lt_trans hab hb
  have he := gather_encode196_pair info (cell196_lt ha hc) (cell196_lt hb hc)
  have hcarries := matrix196_carries info
  refine ⟨fun hpair => bptc196Dec_failing htx hcarries hab hb hc hpair he, fun hpair => ?_⟩
  have hlt : cell196 a c < cell196 b c := by unfold cell196; omega
  exact bptc196Dec_corrects_two htx hcarries (Nat.pos_of_ne_zero (cell196_ne_zero a c).symm) hlt (cell196_lt hb hc) he
    (final196_of_columns_eq hab hb hc hpair)

end Sys2Proof.Machine
end

section
/-! Transmit maps (41_bptc.md R210 to R212): writing through a table that is a permutation undoes reading through it. -/

namespace Sys2Proof.Machine

/-- The table lists the `n` indices below `n`, each once, and `position j` is its entry `j`. -/
structure IsTransmitMap (map : List Nat) (n : Nat) (position : Nat → Nat) : Prop where
  perm : map.length = n ∧ map.Nodup ∧ ∀ i ∈ map, i < n
  getD : ∀ j, j < n → map.getD j n = position j

namespace IsTransmitMap
variable {map : List Nat} {n : Nat} {position : Nat → Nat} (hmap : IsTransmitMap map n position)
include hmap

theorem mem {p : Nat} (hp : p < n) : p ∈ map := by
  obtain ⟨hlen, hnd, hlt⟩ := hmap.perm
  have hsub : map ⊆ List.range n := fun i hi => List.mem_range.mpr (hlt i hi)
  have hperm := (List.subperm_of_subset hnd hsub).perm_of_length_le (by simp [hlen])
  exact hperm.mem_iff.mpr (List.mem_range.mpr hp)

theorem position_lt {j : Nat} (hj : j < n) : position j < n := by
  obtain ⟨hlen, -, hlt⟩ := hmap.perm
  have hj' : j < map.length := hlen ▸ hj
  have hget := hmap.getD j hj
  rw [List.getD_eq_getElem _ _ hj'] at hget
  exact hget ▸ hlt _ (List.getElem_mem hj')

theorem idxOf_position {j : Nat} (hj : j < n) : map.idxOf (position j) = j := by
  obtain ⟨hlen, hnd, -⟩ := hmap.perm
  have hj' : j < map.length := hlen ▸ hj
  rw [← hmap.getD j hj, List.getD_eq_getElem _ _ hj']
  exact hnd.idxOf_getElem j hj'

theorem position_inj {i j : Nat} (hi : i < n) (hj : j < n) (h : position i = position j) : i = j := by
  rw [← hmap.idxOf_position hi, h, hmap.idxOf_position hj]

theorem idxOf_lt {p : Nat} (hp : p < n) : map.idxOf p < n := by
  obtain ⟨hlen, -, -⟩ := hmap.perm
  exact hlen ▸ List.idxOf_lt_length_of_mem (hmap.mem hp)

theorem position_idxOf {p : Nat} (hp : p < n) : position (map.idxOf p) = p := by
  have hidx := List.idxOf_lt_length_of_mem (hmap.mem hp)
  rw [← hmap.getD _ (hmap.idxOf_lt hp), List.getD_eq_getElem _ _ hidx, List.getElem_idxOf hidx]

theorem getMsbD_gather (v : BitVec n) {j : Nat} (hj : j < n) : (gather map v).getMsbD j = v.getMsbD (position j) := by
  rw [Machine.getMsbD_gather, hmap.getD j hj]
  simp [hj]

theorem getMsbD_scatter (v : BitVec n) {j : Nat} (hj : j < n) : (scatter map v).getMsbD (position j) = v.getMsbD j := by
  rw [Machine.getMsbD_scatter, hmap.idxOf_position hj]
  simp [hmap.position_lt hj]

theorem scatter_gather (v : BitVec n) : scatter map (gather map v) = v :=
  eq_of_bits fun p hp => by
    rw [Machine.getMsbD_scatter, hmap.getMsbD_gather v (hmap.idxOf_lt hp), hmap.position_idxOf hp]
    simp [hp]

/-- A wrong transmit bit is a wrong matrix bit. -/
theorem scatter_unitAt {j : Nat} (hj : j < n) : scatter map (unitAt n j) = unitAt n (position j) :=
  eq_of_bits fun p hp => by
    have hiff : map.idxOf p = j ↔ p = position j :=
      ⟨fun h => by rw [← h, hmap.position_idxOf hp], fun h => by rw [h, hmap.idxOf_position hj]⟩
    simp [hp, hmap.idxOf_lt hp, hiff]

end IsTransmitMap

theorem scatter_xor {n : Nat} (idx : List Nat) (v w : BitVec n) :
    scatter idx (v ^^^ w) = scatter idx v ^^^ scatter idx w :=
  eq_of_bits fun p hp => by simp [hp]

theorem cachIdx_isTransmitMap : IsTransmitMap cachIdx 68 fun j => j % 4 * 17 + j / 4 :=
  ⟨cachIdx_perm, fun j hj => by simp [cachIdx, hj]⟩

theorem elcIdx_isTransmitMap : IsTransmitMap elcIdx 128 fun j => j % 8 * 16 + j / 8 :=
  ⟨elcIdx_perm, fun j hj => by simp [elcIdx, hj]⟩

theorem sbIdx_isTransmitMap : IsTransmitMap sbIdx 32 fun j => 17 * j % 32 :=
  ⟨sbIdx_perm, fun j hj => by simp [sbIdx, hj]⟩

end Sys2Proof.Machine
end

section
/-! The flat matrix of a parity-column code by rows, and its column parities (41_bptc.md R208, R209). -/

namespace Sys2Proof.Machine

variable {k r R : Nat} (C : BlockCode k r)

/-- A row ends where the next one begins, or before. -/
theorem rowEnd_le {a R w : Nat} (h : a < R) : a * w + w ≤ R * w := by
  rw [← Nat.succ_mul]
  exact Nat.mul_le_mul_right w h

theorem getMsbD_eq_rowOf {n : Nat} (m : BitVec n) (a : Nat) {c : Nat} (hc : c < k + r) :
    m.getMsbD (a * (k + r) + c) = (rowOf C m a).getMsbD c := by
  simp [hc]

theorem rowOf_xor {n : Nat} (m m' : BitVec n) (a : Nat) : rowOf C (m ^^^ m') a = rowOf C m a ^^^ rowOf C m' a :=
  slice_xor m m' _ _

@[simp] theorem rowOf_zero {n : Nat} (a : Nat) : rowOf C 0#n a = 0#(k + r) := eq_of_bits fun c hc => by simp [hc]

/-- A row after `row(a') = w`. -/
theorem rowOf_setSlice (m : BitVec ((R + 1) * (k + r))) (w : BitVec (k + r)) {a a' : Nat} (ha' : a' < R + 1) :
    rowOf C (setSlice m (a' * (k + r)) w) a = if a = a' then w else rowOf C m a := by
  split
  · next h =>
    subst h
    exact slice_setSlice m _ w (rowEnd_le ha')
  · next h =>
    rcases Nat.lt_or_gt_of_ne h with hlt | hgt
    · exact slice_setSlice_disjoint m _ w _ _ (.inl (rowEnd_le hlt))
    · exact slice_setSlice_disjoint m _ w _ _ (.inr (rowEnd_le hgt))

/-- Two matrices with the same rows are the same. -/
theorem eq_of_rows {m m' : BitVec ((R + 1) * (k + r))} (h : ∀ a, a < R + 1 → rowOf C m a = rowOf C m' a) : m = m' :=
  eq_of_bits fun p hp => by
    have hc : p % (k + r) < k + r := Nat.mod_lt _ (Nat.pos_of_lt_mul_left hp)
    have hbit := congrArg (fun w => w.getMsbD (p % (k + r))) (h (p / (k + r)) (Nat.div_lt_of_lt_mul (Nat.mul_comm _ _ ▸ hp)))
    simp only [← getMsbD_eq_rowOf C _ _ hc, Nat.div_add_mod'] at hbit
    exact hbit

/-- Changing a row is adding the change. -/
theorem setSlice_row_xor (m x : BitVec ((R + 1) * (k + r))) (w : BitVec (k + r)) {a : Nat} (ha : a < R + 1) :
    setSlice (m ^^^ x) (a * (k + r)) (w ^^^ rowOf C x a) = setSlice m (a * (k + r)) w ^^^ x :=
  eq_of_rows C fun a' _ => by
    rw [rowOf_xor, rowOf_setSlice C _ _ ha, rowOf_setSlice C _ _ ha, rowOf_xor]
    by_cases h : a' = a <;> simp [h]

/-- The matrix with `w` in row `a` and zeros elsewhere. -/
def inRow (R a : Nat) (w : BitVec (k + r)) : BitVec ((R + 1) * (k + r)) := setSlice 0#_ (a * (k + r)) w

theorem rowOf_inRow (w : BitVec (k + r)) {a a' : Nat} (ha : a < R + 1) :
    rowOf C (inRow R a w) a' = if a' = a then w else 0#(k + r) := by
  rw [inRow, rowOf_setSlice C _ _ ha, rowOf_zero]

theorem getMsbD_inRow (w : BitVec (k + r)) {a a' c : Nat} (ha : a < R + 1) (hc : c < k + r) :
    (inRow R a w).getMsbD (a' * (k + r) + c) = (decide (a' = a) && w.getMsbD c) := by
  rw [getMsbD_eq_rowOf ⟨[], 0⟩ _ _ hc, rowOf_inRow _ w ha]
  by_cases h : a' = a <;> simp [h]

theorem setSlice_inRow (w w' : BitVec (k + r)) {a : Nat} (ha : a < R + 1) :
    setSlice (inRow R a w) (a * (k + r)) w' = inRow R a w' :=
  eq_of_rows ⟨[], 0⟩ fun a' _ => by
    rw [rowOf_setSlice _ _ _ ha, rowOf_inRow _ _ ha, rowOf_inRow _ _ ha]
    split <;> rfl

theorem inRow_xor (w w' : BitVec (k + r)) {a : Nat} (ha : a < R + 1) :
    inRow R a (w ^^^ w') = inRow R a w ^^^ inRow R a w' :=
  eq_of_rows ⟨[], 0⟩ fun a' _ => by
    rw [rowOf_xor, rowOf_inRow _ _ ha, rowOf_inRow _ _ ha, rowOf_inRow _ _ ha]
    split <;> simp

@[simp] theorem inRow_zero {a : Nat} (ha : a < R + 1) : inRow R a 0#(k + r) = 0#_ :=
  eq_of_rows ⟨[], 0⟩ fun a' _ => by simp [rowOf_inRow _ _ ha]

/-- A place of the matrix and its row and column. -/
theorem place_eq_iff {w a a' c c' : Nat} (hc : c < w) (hc' : c' < w) :
    a * w + c = a' * w + c' ↔ a = a' ∧ c = c' := by
  refine ⟨fun h => ?_, fun ⟨ha, hcc⟩ => ha ▸ hcc ▸ rfl⟩
  have hpos : 0 < w := by omega
  have hdiv : ∀ x y, y < w → (x * w + y) / w = x := fun x y hy => by
    rw [Nat.mul_comm, Nat.mul_add_div hpos, Nat.div_eq_of_lt hy, Nat.add_zero]
  have ha : a = a' := by rw [← hdiv a c hc, h, hdiv a' c' hc']
  subst ha
  exact ⟨rfl, by omega⟩

theorem inRow_unitAt {a c : Nat} (ha : a < R + 1) (hc : c < k + r) :
    inRow R a (unitAt (k + r) c) = unitAt ((R + 1) * (k + r)) (a * (k + r) + c) :=
  eq_of_rows ⟨[], 0⟩ fun a' ha' => eq_of_bits fun c' hc' => by
    have hend := rowEnd_le (w := k + r) ha'
    have hlt : a' * (k + r) + c' < (R + 1) * (k + r) := by omega
    rw [← getMsbD_eq_rowOf _ _ _ hc', ← getMsbD_eq_rowOf _ _ _ hc', getMsbD_inRow _ ha hc']
    simp [hlt, hc', place_eq_iff hc' hc]

/-- The reference form of a column parity. -/
theorem foldl_xor_getMsbD {n : Nat} (m : BitVec n) (place : Nat → Nat) (l : List Nat) (b : Bool) :
    l.foldl (fun acc a => acc ^^ m.getMsbD (place a)) b = (b ^^ xorBits m (l.map place)) := by
  induction l generalizing b with
  | nil => simp
  | cons a l ih => rw [List.foldl_cons, ih, List.map_cons, xorBits_cons, Bool.xor_assoc]

/-- The column parity of R208. -/
theorem getMsbD_columnParity_eq_foldl {n : Nat} (odd : Bool) (m : BitVec n) {c : Nat} (hc : c < k + r) :
    (columnParity C R odd m).getMsbD c =
      (List.range R).foldl (fun acc a => acc ^^ m.getMsbD (a * (k + r) + c)) odd := by
  rw [foldl_xor_getMsbD m (fun a => a * (k + r) + c), getMsbD_columnParity]
  simp [hc]

theorem getMsbD_violations {n : Nat} (odd : Bool) (m : BitVec n) (c : Nat) :
    (violations C R odd m).getMsbD c = ((rowOf C m R).getMsbD c ^^ (columnParity C R odd m).getMsbD c) :=
  BitVec.getMsbD_xor

/-- The violation of R209. -/
theorem getMsbD_violations_eq_foldl {n : Nat} (odd : Bool) (m : BitVec n) {c : Nat} (hc : c < k + r) :
    (violations C R odd m).getMsbD c =
      (List.range (R + 1)).foldl (fun acc a => acc ^^ m.getMsbD (a * (k + r) + c)) odd := by
  rw [List.range_succ, List.foldl_append, ← getMsbD_columnParity_eq_foldl C odd m hc, getMsbD_violations,
    ← getMsbD_eq_rowOf C m R hc]
  exact Bool.xor_comm _ _

/-- No column parity is violated when the last row is the column parity. -/
theorem violations_eq_zero_iff {n : Nat} {odd : Bool} {m : BitVec n} :
    violations C R odd m = 0#(k + r) ↔ rowOf C m R = columnParity C R odd m := by
  rw [violations, BitVec.xor_eq_zero_iff]

theorem columnParity_xor {n : Nat} (odd : Bool) (m x : BitVec n) :
    columnParity C R odd (m ^^^ x) = columnParity C R false m ^^^ columnParity C R odd x :=
  eq_of_bits fun c hc => by
    simp only [getMsbD_columnParity, BitVec.getMsbD_xor, xorBits_xor, hc, decide_true, Bool.true_and, Bool.false_xor]
    exact Bool.xor_left_comm _ _ _

/-- The violations of a sum are those of the one matrix, by even parity, and of the other. -/
theorem violations_xor {n : Nat} (odd : Bool) (m x : BitVec n) :
    violations C R odd (m ^^^ x) = violations C R false m ^^^ violations C R odd x := by
  rw [violations, rowOf_xor, columnParity_xor, violations, violations]
  ac_rfl

/-- By the other parity every column is violated that was not. -/
theorem violations_not {n : Nat} (odd : Bool) (m : BitVec n) {c : Nat} (hc : c < k + r) :
    (violations C R (!odd) m).getMsbD c = !(violations C R odd m).getMsbD c := by
  simp [getMsbD_violations, hc]

/-- A column with one bit set has the parity of that bit. -/
theorem foldl_xor_single {f : Nat → Bool} {R a : Nat} (ha : a < R) (hf : ∀ a', a' ≠ a → f a' = false) :
    (List.range R).foldl (fun acc a' => acc ^^ f a') false = f a := by
  have h := foldl_eq_of_single (f := fun acc a' => acc ^^ f a') (s := false) List.nodup_range (List.mem_range.mpr ha)
    (fun b _ hb => by simp [hf b hb]) fun b _ hb => by simp [hf b hb]
  simpa using h

/-- A matrix with one row violates the column parities where that row has its ones. -/
theorem violations_inRow (w : BitVec (k + r)) {a : Nat} (ha : a < R + 1) : violations C R false (inRow R a w) = w :=
  eq_of_bits fun c hc => by
    rw [getMsbD_violations_eq_foldl C false _ hc]
    simp only [getMsbD_inRow w ha hc]
    rw [foldl_xor_single ha fun a' h => by simp [h]]
    simp

theorem getMsbD_takeInfo_eq_rowOf {n : Nat} (m : BitVec n) {i : Nat} (hi : i < R * k) :
    (takeInfo C R m).getMsbD i = (rowOf C m (i / k)).getMsbD (i % k) := by
  have hk : i % k < k := Nat.mod_lt _ (Nat.pos_of_lt_mul_left hi)
  rw [← getMsbD_eq_rowOf C m _ (by omega), getMsbD_takeInfo]
  simp [hi]

/-- The information bits are read off the data rows. -/
theorem takeInfo_congr {n : Nat} {m m' : BitVec n} (h : ∀ a, a < R → rowOf C m a = rowOf C m' a) :
    takeInfo C R m = takeInfo C R m' :=
  eq_of_bits fun i hi => by
    rw [getMsbD_takeInfo_eq_rowOf C m hi, getMsbD_takeInfo_eq_rowOf C m' hi,
      h _ (Nat.div_lt_of_lt_mul (Nat.mul_comm _ _ ▸ hi))]

theorem takeInfo_xor {n : Nat} (m m' : BitVec n) : takeInfo C R (m ^^^ m') = takeInfo C R m ^^^ takeInfo C R m' :=
  eq_of_bits fun i hi => by simp [hi]

@[simp] theorem takeInfo_zero (n : Nat) : takeInfo C R 0#n = 0#(R * k) := eq_of_bits fun i hi => by simp

/-! #### The encoder's matrix -/

theorem rowOf_dataRowsOf {i : Nat} (info : BitVec i) {a : Nat} (ha : a < R) :
    rowOf C (dataRowsOf C R info) a = encodeBlock C (slice info (a * k) k) := by
  have h := foldl_range_update (get := fun m : BitVec ((R + 1) * (k + r)) => rowOf C m)
    (upd := fun m a => setSlice m (a * (k + r)) (encodeBlock C (slice info (a * k) k)))
    (f := fun a _ => encodeBlock C (slice info (a * k) k)) (size := R)
    (fun m a' a ha' _ => rowOf_setSlice C m _ (Nat.lt_succ_of_lt ha')) 0 (n := R) (Nat.le_refl R) ha
  rwa [if_pos ha] at h

/-- The data rows of the matrix are encoded information (41_bptc.md R208). -/
theorem rowOf_matrixParity {i : Nat} (odd : Bool) (info : BitVec i) {a : Nat} (ha : a < R) :
    rowOf C (matrixParity C R odd info) a = encodeBlock C (slice info (a * k) k) := by
  rw [matrixParity, rowOf_setSlice C _ _ (Nat.lt_succ_self R), if_neg (Nat.ne_of_lt ha), rowOf_dataRowsOf C info ha]

theorem columnParity_congr {n : Nat} {odd : Bool} {m m' : BitVec n} (h : ∀ a, a < R → rowOf C m a = rowOf C m' a) :
    columnParity C R odd m = columnParity C R odd m' :=
  eq_of_bits fun c hc => by
    rw [getMsbD_columnParity_eq_foldl C odd m hc, getMsbD_columnParity_eq_foldl C odd m' hc]
    refine List.foldl_ext _ _ _ fun acc a ha => ?_
    rw [getMsbD_eq_rowOf C m a hc, getMsbD_eq_rowOf C m' a hc, h a (List.mem_range.mp ha)]

/-- Its last row is the column parity (41_bptc.md R208). -/
theorem rowOf_matrixParity_last {i : Nat} (odd : Bool) (info : BitVec i) :
    rowOf C (matrixParity C R odd info) R = columnParity C R odd (matrixParity C R odd info) := by
  have hrow : rowOf C (matrixParity C R odd info) R = columnParity C R odd (dataRowsOf C R info) := by
    rw [matrixParity, rowOf_setSlice C _ _ (Nat.lt_succ_self R), if_pos rfl]
  rw [hrow]
  exact columnParity_congr C fun a ha => by rw [rowOf_dataRowsOf C info ha, rowOf_matrixParity C odd info ha]

/-- A decoder reads the information back off the matrix. -/
theorem takeInfo_matrixParity (odd : Bool) (info : BitVec (R * k)) :
    takeInfo C R (matrixParity C R odd info) = info :=
  eq_of_bits fun i hi => by
    have hk : i % k < k := Nat.mod_lt _ (Nat.pos_of_lt_mul_left hi)
    rw [getMsbD_takeInfo_eq_rowOf C _ hi, rowOf_matrixParity C odd info (Nat.div_lt_of_lt_mul (Nat.mul_comm _ _ ▸ hi)),
      getMsbD_encodeBlock_data C _ hk, getMsbD_slice, Nat.div_add_mod']
    simp [hk]

end Sys2Proof.Machine
end

section
/-! The loop of the parity-column decoders (41_bptc.md R209): its passes are the reference passes of Safety, and it commutes
with adding a matrix of codewords that violates no column parity. -/

namespace Sys2Proof.Machine

/-- The matrix the loop of R209 leaves. -/
def finalParity {k r : Nat} (policy : RowPolicy) (C : BlockCode k r) (R : Nat) (odd : Bool) {n : Nat} (m₀ : BitVec n) :
    BitVec n :=
  (repeatPasses (passParity policy C R odd) passLimit m₀).1

/-- The decoder reads its result off the matrix the loop leaves (41_bptc.md R209). -/
theorem decodeParity_eq {k r n : Nat} (policy : RowPolicy) (C : BlockCode k r) (R : Nat) (odd : Bool) (map : List Nat)
    (tx : BitVec n) : decodeParity policy C R odd map tx =
      (takeInfo C R (finalParity policy C R odd (scatter map tx)),
        ⟨n, weight (finalParity policy C R odd (scatter map tx) ^^^ scatter map tx),
          inconsistentParity C R odd (finalParity policy C R odd (scatter map tx))⟩) :=
  rfl

/-- The data rows of the matrix are codewords. -/
def CodewordRows {k r : Nat} (C : BlockCode k r) (R : Nat) {n : Nat} (m : BitVec n) : Prop :=
  ∀ a, a < R → syndrome C (rowOf C m a) = 0#r

theorem inconsistentParity_eq_false {k r R n : Nat} {C : BlockCode k r} {odd : Bool} {m : BitVec n} :
    inconsistentParity C R odd m = false ↔ CodewordRows C R m ∧ violations C R odd m = 0#(k + r) := by
  simp [inconsistentParity, CodewordRows]

/-! #### The reference passes -/

/-- A corrected bit is committed by the policy, or its column is violated (41_bptc.md R209). -/
theorem rowOk_flip {n : Nat} (policy : RowPolicy) (w v : BitVec n) {c : Nat} (hc : c < n) :
    rowOk policy (w ^^^ unitAt n c) w v = true ↔ policy = .unconditional ∨ v.getMsbD c = true := by
  have hflip : w ^^^ unitAt n c ^^^ w = unitAt n c := by
    rw [BitVec.xor_comm w, BitVec.xor_assoc, BitVec.xor_self, BitVec.xor_zero]
  cases policy with
  | unconditional => simp [rowOk]
  | columnGated =>
    simp only [rowOk, hflip, beq_iff_eq, reduceCtorEq, false_or]
    refine ⟨fun h => ?_, fun h => eq_of_bits fun i hi => ?_⟩
    · have hbit := congrArg (fun u => u.getMsbD c) h
      simpa [hc] using hbit
    · by_cases hic : i = c
      · simp [hic, h, hc]
      · simp [hic]

section reference
variable {row : BlockRow} {C : BlockCode row.k row.r} (hC : Realizes row C) (ht : row.t = 1) {R : Nat}
include hC ht

theorem fixRow_eq_rowStepR209 (policy : RowPolicy) {v : BitVec (row.k + row.r)} {bits : Nat → Bool}
    (hv : ∀ c, c < row.k + row.r → bits c = v.getMsbD c) (st : BitVec ((R + 1) * (row.k + row.r)) × Bool) {a : Nat}
    (ha : a < R) : fixRow policy C v st a = rowStepR209 policy row bits st a := by
  have hrow := hC.decodeBlock_wrongBit ht fun c hc => getMsbD_eq_rowOf C st.1 a hc
  unfold fixRow rowStepR209
  rcases hrow with ⟨c, hc, hw, hdec⟩ | ⟨hw, hcount⟩
  · have hset : setSlice st.1 (a * (row.k + row.r)) (rowOf C st.1 a ^^^ unitAt (row.k + row.r) c) =
        st.1 ^^^ unitAt ((R + 1) * (row.k + row.r)) (a * (row.k + row.r) + c) := by
      have ha' : a < R + 1 := Nat.lt_succ_of_lt ha
      rw [← inRow_unitAt ha' hc]
      refine eq_of_rows C fun a' _ => ?_
      rw [rowOf_setSlice C _ _ ha', rowOf_xor, rowOf_inRow C _ ha']
      by_cases h : a' = a <;> simp [h]
    simp only [hw, hdec, rowOk_flip policy _ _ hc, hv c hc, hset, Nat.zero_lt_one, true_and]
  · rw [hw]
    simp [hcount]

/-- The passes of a parity-column decoder are those of R209. -/
theorem passParity_eq_passR209 (policy : RowPolicy) (odd : Bool) :
    passParity policy C R odd (n := (R + 1) * (row.k + row.r)) = passR209 policy row R odd :=
  funext fun m => List.foldl_ext _ _ _ fun st _ ha =>
    fixRow_eq_rowStepR209 hC ht policy (fun _ hc => (getMsbD_violations_eq_foldl C odd m hc).symm) st (List.mem_range.mp ha)

theorem finalParity_loop (policy : RowPolicy) (odd : Bool) (m₀ : BitVec ((R + 1) * (row.k + row.r))) :
    ∃ passes, LoopR214 (passR209 policy row R odd) m₀ (finalParity policy C R odd m₀) passes := by
  rw [← passParity_eq_passR209 hC ht]
  exact ⟨_, repeatPasses_loopR214 _ m₀⟩

end reference

/-! #### Adding a codeword matrix -/

variable {k r R : Nat} {C : BlockCode k r}

theorem fixRow_of_codeword {n : Nat} {policy : RowPolicy} {v : BitVec (k + r)} {st : BitVec n × Bool} {a : Nat}
    (h : syndrome C (rowOf C st.1 a) = 0#r) : fixRow policy C v st a = st := by
  unfold fixRow
  simp [decodeBlock_of_codeword C h]

/-- Codeword rows are left alone, whatever the column parities say. -/
theorem finalParity_of_codewordRows {n : Nat} (policy : RowPolicy) (odd : Bool) {m : BitVec n} (hm : CodewordRows C R m) :
    finalParity policy C R odd m = m :=
  repeatPasses_of_stable _ passLimit m
    (foldl_eq_of_fixed fun a ha => fixRow_of_codeword (hm a (List.mem_range.mp ha)))

theorem rowOk_xor {n : Nat} (policy : RowPolicy) (w row x v : BitVec n) :
    rowOk policy (w ^^^ x) (row ^^^ x) v = rowOk policy w row v := by
  have hcancel : w ^^^ x ^^^ (row ^^^ x) = w ^^^ row := by
    rw [BitVec.xor_comm row, BitVec.xor_assoc, ← BitVec.xor_assoc x, BitVec.xor_self, BitVec.zero_xor]
  cases policy with
  | unconditional => rfl
  | columnGated => simp only [rowOk, hcancel]

theorem fixRow_xor {x : BitVec ((R + 1) * (k + r))} (policy : RowPolicy) (v : BitVec (k + r))
    (st : BitVec ((R + 1) * (k + r)) × Bool) {a : Nat} (ha : a < R) (hx : syndrome C (rowOf C x a) = 0#r) :
    fixRow policy C v (st.1 ^^^ x, st.2) a = ((fixRow policy C v st a).1 ^^^ x, (fixRow policy C v st a).2) := by
  unfold fixRow
  simp only [rowOf_xor, decodeBlock_xor_codeword C _ hx, rowOk_xor]
  split
  · rw [setSlice_row_xor C _ _ _ (Nat.lt_succ_of_lt ha)]
  · rfl

/-- The decoder of either parity treats the wrong bits in a matrix of that parity alike. -/
theorem finalParity_xor {odd : Bool} {x : BitVec ((R + 1) * (k + r))} (policy : RowPolicy) (hrows : CodewordRows C R x)
    (hcols : violations C R odd x = 0#(k + r)) (e : BitVec ((R + 1) * (k + r))) :
    finalParity policy C R odd (e ^^^ x) = finalParity policy C R false e ^^^ x := by
  refine repeatPasses_map (f := (· ^^^ x)) (fun m => ?_) passLimit e
  unfold passParity
  rw [violations_xor, hcols, BitVec.xor_zero]
  exact foldl_map_of_step (h := fun st : BitVec ((R + 1) * (k + r)) × Bool => (st.1 ^^^ x, st.2))
    (fun st a ha => fixRow_xor policy _ st (List.mem_range.mp ha) (hrows a (List.mem_range.mp ha))) (m, false)

theorem codewordRows_xor_iff {n : Nat} {m x : BitVec n} (hx : CodewordRows C R x) :
    CodewordRows C R (m ^^^ x) ↔ CodewordRows C R m :=
  forall_congr' fun a => imp_congr_right fun ha => by rw [rowOf_xor, syndrome_xor, hx a ha, BitVec.xor_zero]

theorem inconsistentParity_xor {n : Nat} {odd : Bool} {x : BitVec n} (hrows : CodewordRows C R x)
    (hcols : violations C R odd x = 0#(k + r)) (m : BitVec n) :
    inconsistentParity C R odd (m ^^^ x) = inconsistentParity C R false m := by
  have h : inconsistentParity C R odd (m ^^^ x) = false ↔ inconsistentParity C R false m = false := by
    rw [inconsistentParity_eq_false, inconsistentParity_eq_false, codewordRows_xor_iff hrows, violations_xor, hcols,
      BitVec.xor_zero]
  cases hm : inconsistentParity C R false m <;> simpa [hm] using h

/-- The outcome of a decode of a codeword matrix `x` with the wrong bits `e`. -/
theorem decodeParity_of_errors {odd : Bool} {map : List Nat} {tx x e : BitVec ((R + 1) * (k + r))} (policy : RowPolicy)
    (hrows : CodewordRows C R x) (hcols : violations C R odd x = 0#(k + r)) (htx : scatter map tx = e ^^^ x) :
    decodeParity policy C R odd map tx = (takeInfo C R (finalParity policy C R false e) ^^^ takeInfo C R x,
      ⟨(R + 1) * (k + r), weight (finalParity policy C R false e ^^^ e),
        inconsistentParity C R false (finalParity policy C R false e)⟩) := by
  have hchange : finalParity policy C R false e ^^^ x ^^^ (e ^^^ x) = finalParity policy C R false e ^^^ e := by
    rw [BitVec.xor_comm e, BitVec.xor_assoc, ← BitVec.xor_assoc x, BitVec.xor_self, BitVec.zero_xor]
  rw [decodeParity_eq, htx, finalParity_xor policy hrows hcols, takeInfo_xor, inconsistentParity_xor hrows hcols, hchange]

/-- The outcome of a decode of a matrix whose data rows are codewords: only the column parities are in question. -/
theorem decodeParity_of_codewordRows {n : Nat} {odd : Bool} {map : List Nat} {tx : BitVec n} (policy : RowPolicy)
    (hrows : CodewordRows C R (scatter map tx)) : decodeParity policy C R odd map tx =
      (takeInfo C R (scatter map tx), ⟨n, 0, violations C R odd (scatter map tx) != 0#(k + r)⟩) := by
  have htest : inconsistentParity C R odd (scatter map tx) = (violations C R odd (scatter map tx) != 0#(k + r)) := by
    have h := inconsistentParity_eq_false (C := C) (R := R) (odd := odd) (m := scatter map tx)
    rw [and_iff_right hrows] at h
    rw [Bool.eq_iff_iff, ← Bool.not_eq_false, h, bne_iff_ne]
  rw [decodeParity_eq, finalParity_of_codewordRows policy odd hrows, BitVec.xor_self, weight_zero, htest]

/-! #### Wrong bits in one data row -/

/-- What a pass does to the wrong bits of one data row: they are the column violations too. -/
def rowPass (policy : RowPolicy) (C : BlockCode k r) (w : BitVec (k + r)) : BitVec (k + r) × Bool :=
  if 0 < (decodeBlock C w).2.errorsCorrected ∧ rowOk policy (decodeBlock C w).1 w w = true
  then ((decodeBlock C w).1, true) else (w, false)

theorem fixRow_inRow_same (policy : RowPolicy) (w : BitVec (k + r)) {a : Nat} (ha : a < R) :
    fixRow policy C w (inRow R a w, false) a = (inRow R a (rowPass policy C w).1, (rowPass policy C w).2) := by
  have hrow : rowOf C (inRow R a w) a = w := by rw [rowOf_inRow C w (Nat.lt_succ_of_lt ha), if_pos rfl]
  unfold fixRow rowPass
  simp only [hrow, setSlice_inRow w _ (Nat.lt_succ_of_lt ha)]
  split <;> rfl

theorem fixRow_inRow_other (policy : RowPolicy) (v w : BitVec (k + r)) (fixing : Bool) {a a' : Nat} (ha : a < R)
    (hne : a' ≠ a) : fixRow policy C v (inRow R a w, fixing) a' = (inRow R a w, fixing) :=
  fixRow_of_codeword (by rw [rowOf_inRow C w (Nat.lt_succ_of_lt ha), if_neg hne, syndrome_zero])

theorem finalParity_inRow (policy : RowPolicy) (w : BitVec (k + r)) {a : Nat} (ha : a < R) :
    finalParity policy C R false (inRow R a w) = inRow R a (repeatPasses (rowPass policy C) passLimit w).1 := by
  refine repeatPasses_map (f := inRow R a) (fun w => ?_) passLimit w
  rw [passParity, violations_inRow C w (Nat.lt_succ_of_lt ha), ← fixRow_inRow_same policy w ha]
  refine foldl_eq_of_single List.nodup_range (List.mem_range.mpr ha) (fun a' _ hne => ?_) fun a' _ hne => ?_
  · exact fixRow_inRow_other policy w w false ha hne
  · rw [fixRow_inRow_same policy w ha]
    exact fixRow_inRow_other policy w _ _ ha hne

/-- A pass leaves the wrong bits or decodes them. -/
theorem rowPass_cases (policy : RowPolicy) (C : BlockCode k r) (w : BitVec (k + r)) :
    (rowPass policy C w).1 = (decodeBlock C w).1 ∨ (rowPass policy C w).1 = w := by
  unfold rowPass
  split
  · exact .inl rfl
  · exact .inr rfl

theorem decodeBlock_idem (C : BlockCode k r) (w : BitVec (k + r)) :
    (decodeBlock C (decodeBlock C w).1).1 = (decodeBlock C w).1 := by
  rcases Nat.eq_zero_or_pos (decodeBlock C w).2.errorsCorrected with hcount | hcount
  · rw [decodeBlock_of_count_eq_zero hcount, decodeBlock_of_count_eq_zero hcount]
  · rw [decodeBlock_of_codeword C (syndrome_decodeBlock_of_count_pos hcount)]

/-- Wrong bits that the row decoder does not take away are never taken away. -/
theorem repeatPasses_rowPass_ne_zero (policy : RowPolicy) {w : BitVec (k + r)} (h : (decodeBlock C w).1 ≠ 0#(k + r)) :
    (repeatPasses (rowPass policy C) passLimit w).1 ≠ 0#(k + r) := by
  have hkept : (decodeBlock C (repeatPasses (rowPass policy C) passLimit w).1).1 ≠ 0#(k + r) :=
    repeatPasses_induction (P := fun w => (decodeBlock C w).1 ≠ 0#(k + r)) (fun w hw => by
      rcases rowPass_cases policy C w with hpass | hpass <;> rw [hpass]
      · rwa [decodeBlock_idem]
      · exact hw) passLimit h
  intro hzero
  rw [hzero, decodeBlock_of_codeword C (syndrome_zero C)] at hkept
  exact hkept rfl

/-- More wrong bits than the code corrects are not taken away. -/
theorem decodeBlock_ne_zero {w : BitVec (k + r)} (h : C.radius < weight w) : (decodeBlock C w).1 ≠ 0#(k + r) := by
  have hw : w ≠ 0#(k + r) := fun hzero => by simp [hzero] at h
  rcases decodeBlock_cases C w with ⟨-, hdec⟩ | ⟨-, e, hpat, hdec⟩ | ⟨-, -, hdec⟩ <;> rw [hdec]
  · exact hw
  · intro hzero
    have heq : w = e := BitVec.xor_eq_zero_iff.mp hzero
    have hle := (errorPattern_some hpat).1
    rw [← heq] at hle
    omega
  · exact hw

/-- One wrong bit of a data row is taken away under either policy: its column is violated. -/
theorem repeatPasses_rowPass_unitAt {c : Nat} (policy : RowPolicy)
    (hdec : decodeBlock C (unitAt (k + r) c) = (0#(k + r), ⟨k + r, 1, false⟩)) :
    (repeatPasses (rowPass policy C) passLimit (unitAt (k + r) c)).1 = 0#(k + r) := by
  refine repeatPasses_of_reaches 4 ?_ ?_
  · have hok : rowOk policy 0#(k + r) (unitAt (k + r) c) (unitAt (k + r) c) = true := by
      cases policy <;> simp [rowOk]
    simp [rowPass, hdec, hok]
  · simp [rowPass, decodeBlock_of_codeword C (syndrome_zero C)]

end Sys2Proof.Machine
end

section
/-! The commands of the parity-column codes (41_bptc.md R208 to R212, R216): CACH, embedded LC and single burst, said once for
all of them. -/

namespace Sys2Proof.Machine

/-- The model performs the two commands by the parity-column code over the row code `C`, with `R` data rows, the column parity
`odd` and the transmit map `position`. -/
structure ParityRealizes (enc dec : Instr) (row : BlockRow) (C : BlockCode row.k row.r) (R : Nat) (odd : Bool)
    (map : List Nat) (position : Nat → Nat) : Prop where
  enc_eq : ∀ {s : State} {info : BitVec (R * row.k)}, HoldsOperand s info →
    exec enc s = .next (resultPlain (encodeParity C R odd map info) s)
  dec_eq : ∀ {s : State} {tx : BitVec ((R + 1) * (row.k + row.r))}, HoldsOperand s tx →
    exec dec s = .next (resultDecoded tx (decodeParity s.params.rowPolicy C R odd map tx) s)
  code : Realizes row C
  oneError : row.t = 1
  isMap : IsTransmitMap map ((R + 1) * (row.k + row.r)) position
  short : (R + 1) * (row.k + row.r) ≤ 196

theorem cach_realizes : ParityRealizes (.cachEnc 0#8 36#16) (.cachDec 0#8 68#16) rowH17123 h17123 3 false cachIdx
    fun j => j % 4 * 17 + j / 4 :=
  ⟨(exec_of_holdsOperand (i := .cachEnc 0#8 36#16) · rfl rfl), (exec_of_holdsOperand (i := .cachDec 0#8 68#16) · rfl rfl),
    realizes_h17123, rfl, cachIdx_isTransmitMap, by decide⟩

theorem elc_realizes : ParityRealizes (.elcEnc 0#8 77#16) (.elcDec 0#8 128#16) rowH16114 h16114 7 false elcIdx
    fun j => j % 8 * 16 + j / 8 :=
  ⟨(exec_of_holdsOperand (i := .elcEnc 0#8 77#16) · rfl rfl), (exec_of_holdsOperand (i := .elcDec 0#8 128#16) · rfl rfl),
    realizes_h16114, rfl, elcIdx_isTransmitMap, by decide⟩

theorem sbEven_realizes : ParityRealizes (.sbEnc 0#8 11#16) (.sbDec 0#8 32#16) rowH16114 h16114 1 false sbIdx
    fun j => 17 * j % 32 :=
  ⟨(exec_of_holdsOperand (i := .sbEnc 0#8 11#16) · rfl rfl), (exec_of_holdsOperand (i := .sbDec 0#8 32#16) · rfl rfl),
    realizes_h16114, rfl, sbIdx_isTransmitMap, by decide⟩

theorem sbRc_realizes : ParityRealizes .sbEncRc .sbDecRc rowH16114 h16114 1 true sbIdx fun j => 17 * j % 32 :=
  ⟨(exec_of_holdsOperand (i := .sbEncRc) · rfl rfl), (exec_of_holdsOperand (i := .sbDecRc) · rfl rfl), realizes_h16114, rfl,
    sbIdx_isTransmitMap, by decide⟩

/-- `SB.ENC` and `SB.DEC` with FLG.ODD = 1 are the RC forms (30_encoding.md R80). -/
theorem sbOdd_realizes : ParityRealizes (.sbEnc 1#8 11#16) (.sbDec 1#8 32#16) rowH16114 h16114 1 true sbIdx
    fun j => 17 * j % 32 := by
  obtain ⟨henc, hdec, hcode, hone, hmap, hshort⟩ := sbRc_realizes
  refine ⟨fun {s} {_} h => ?_, fun {s} {_} h => ?_, hcode, hone, hmap, hshort⟩
  · rw [← (reverseChannelFormsAreOdd s).1]
    exact henc h
  · rw [← (reverseChannelFormsAreOdd s).2]
    exact hdec h

namespace ParityRealizes

variable {enc dec : Instr} {row : BlockRow} {C : BlockCode row.k row.r} {R : Nat} {odd : Bool} {map : List Nat}
  {position : Nat → Nat} (h : ParityRealizes enc dec row C R odd map position)
include h

theorem info_short : R * row.k ≤ 196 :=
  (Nat.mul_le_mul (Nat.le_succ R) (Nat.le_add_right row.k row.r)).trans h.short

theorem enc_completes {s : State} {info : BitVec (R * row.k)} (hinfo : HoldsOperand s info) :
    Completes (exec enc s) s (encodeParity C R odd map info) 0 0 false := by
  rw [h.enc_eq hinfo]
  exact resultPlain_completes _ s h.short

/-- The decoder completes with what it decoded, when nothing is left wrong. -/
theorem dec_completes {s : State} {tx : BitVec ((R + 1) * (row.k + row.r))} (htx : HoldsOperand s tx)
    {info : BitVec (R * row.k)} {e : Nat}
    (hdec : decodeParity s.params.rowPolicy C R odd map tx = (info, ⟨(R + 1) * (row.k + row.r), e, false⟩)) :
    Completes (exec dec s) s info ((R + 1) * (row.k + row.r)) e false := by
  have hbounded := decodeParity_bounded s.params.rowPolicy C R odd map tx h.short
  rw [h.dec_eq htx]
  rw [hdec] at hbounded ⊢
  exact resultDecoded_completes tx s h.info_short hbounded rfl

theorem dec_completesUncorrectable {s : State} {tx : BitVec ((R + 1) * (row.k + row.r))} (htx : HoldsOperand s tx)
    {info : BitVec (R * row.k)} {e : Nat}
    (hdec : decodeParity s.params.rowPolicy C R odd map tx = (info, ⟨(R + 1) * (row.k + row.r), e, true⟩)) :
    CompletesUncorrectable (exec dec s) s info ((R + 1) * (row.k + row.r)) e := by
  have hbounded := decodeParity_bounded s.params.rowPolicy C R odd map tx h.short
  rw [h.dec_eq htx]
  rw [hdec] at hbounded ⊢
  exact resultDecoded_completesUncorrectable tx s h.info_short hbounded rfl

/-- The encoder as R208 says. -/
theorem parityEncodes : ParityEncodes enc row R odd position := by
  intro s info hinfo
  refine ⟨encodeParity C R odd map info, matrixParity C R odd info, h.enc_completes hinfo,
    fun j hj => h.isMap.getMsbD_gather _ hj, fun a ha => ⟨?_, fun i hi => ?_⟩, fun c hc => ?_⟩
  · rw [h.code.isCodeword_iff_of_bits fun c hc => getMsbD_eq_rowOf C _ a hc, rowOf_matrixParity C odd info ha]
    exact syndrome_encodeBlock C _
  · rw [getMsbD_eq_rowOf C _ a (by omega), rowOf_matrixParity C odd info ha, getMsbD_encodeBlock_data C _ hi]
    simp [hi]
  · rw [← getMsbD_columnParity_eq_foldl C odd _ hc, getMsbD_eq_rowOf C _ R hc, rowOf_matrixParity_last]

/-- The decoder of every received vector as R209 says. -/
theorem parityReports : ParityReports dec row R odd position := by
  intro s tx htx
  obtain ⟨passes, hloop⟩ := finalParity_loop h.code h.oneError s.params.rowPolicy odd (scatter map tx)
  obtain ⟨info, hexec, hinfo⟩ := resultDecoded_reports tx s h.info_short
    (decodeParity_bounded s.params.rowPolicy C R odd map tx h.short)
  rw [← h.dec_eq htx] at hexec
  rw [decodeParity_eq] at hexec hinfo
  refine ⟨scatter map tx, finalParity s.params.rowPolicy C R odd (scatter map tx), passes, info,
    inconsistentParity C R odd (finalParity s.params.rowPolicy C R odd (scatter map tx)),
    fun j hj => h.isMap.getMsbD_scatter tx hj, hloop, hexec, ?_, ?_, fun hfixed a i ha hi => ?_⟩
  · exact repeatPasses_induction (P := SameFrom (R * (row.k + row.r)) (scatter map tx))
      (fun _ => passParity_sameFrom s.params.rowPolicy C R odd) passLimit fun _ _ => rfl
  · rw [inconsistentParity_eq_false, violations_eq_zero_iff]
    refine and_congr (forall_congr' fun a => imp_congr_right fun _ => ?_) ⟨fun hlast c hc => ?_, fun hlast => ?_⟩
    · exact (h.code.isCodeword_iff_of_bits fun c hc => getMsbD_eq_rowOf C _ a hc).symm
    · rw [← getMsbD_columnParity_eq_foldl C odd _ hc, getMsbD_eq_rowOf C _ R hc, hlast]
    · refine eq_of_bits fun c hc => ?_
      rw [getMsbD_columnParity_eq_foldl C odd _ hc, ← getMsbD_eq_rowOf C _ R hc, hlast c hc]
  · have hend := rowEnd_le (w := row.k) ha
    have hplace : (a * row.k + i) / row.k = a ∧ (a * row.k + i) % row.k = i := by
      rw [Nat.mul_comm, Nat.mul_add_div (by omega), Nat.mul_add_mod, Nat.div_eq_of_lt hi, Nat.mod_eq_of_lt hi]
      exact ⟨Nat.add_zero a, rfl⟩
    rw [hinfo hfixed, getMsbD_takeInfo_eq_rowOf C _ (by omega), hplace.1, hplace.2, ← getMsbD_eq_rowOf C _ a (by omega)]

omit h in
theorem matrixParity_codewordRows (info : BitVec (R * row.k)) : CodewordRows C R (matrixParity C R odd info) :=
  fun a ha => by
    rw [rowOf_matrixParity C odd info ha]
    exact syndrome_encodeBlock C _

omit h in
theorem violations_matrixParity (info : BitVec (R * row.k)) :
    violations C R odd (matrixParity C R odd info) = 0#(row.k + row.r) :=
  (violations_eq_zero_iff C).mpr (rowOf_matrixParity_last C odd info)

/-- The received matrix of an encoded vector. -/
theorem scatter_encodeParity (info : BitVec (R * row.k)) :
    scatter map (encodeParity C R odd map info) = matrixParity C R odd info :=
  h.isMap.scatter_gather _

theorem scatter_encodeParity_xor (info : BitVec (R * row.k)) {j : Nat} (hj : j < (R + 1) * (row.k + row.r)) :
    scatter map (encodeParity C R odd map info ^^^ unitAt _ j) = unitAt _ (position j) ^^^ matrixParity C R odd info := by
  rw [scatter_xor, h.scatter_encodeParity, h.isMap.scatter_unitAt hj, BitVec.xor_comm]

/-- Nothing wrong: the information comes back. -/
theorem decodeParity_encodeParity (policy : RowPolicy) (info : BitVec (R * row.k)) :
    decodeParity policy C R odd map (encodeParity C R odd map info) =
      (info, ⟨(R + 1) * (row.k + row.r), 0, false⟩) := by
  have hrows := matrixParity_codewordRows (C := C) (odd := odd) info
  rw [← h.scatter_encodeParity] at hrows
  rw [decodeParity_of_codewordRows policy hrows, h.scatter_encodeParity, takeInfo_matrixParity, violations_matrixParity,
    bne_self_eq_false]

/-- One wrong bit in a data row is corrected and counted, under either policy. -/
theorem decodeParity_dataBit (policy : RowPolicy) (info : BitVec (R * row.k)) {tx : BitVec ((R + 1) * (row.k + row.r))}
    {p : Nat} (hp : p < R * (row.k + row.r)) (htx : scatter map tx = unitAt _ p ^^^ matrixParity C R odd info) :
    decodeParity policy C R odd map tx = (info, ⟨(R + 1) * (row.k + row.r), 1, false⟩) := by
  have hplt : p < (R + 1) * (row.k + row.r) := by
    rw [Nat.succ_mul]
    omega
  have ha : p / (row.k + row.r) < R := Nat.div_lt_of_lt_mul (Nat.mul_comm _ _ ▸ hp)
  have hc : p % (row.k + row.r) < row.k + row.r := Nat.mod_lt _ (Nat.pos_of_lt_mul_left hp)
  have he : unitAt ((R + 1) * (row.k + row.r)) p =
      inRow R (p / (row.k + row.r)) (unitAt (row.k + row.r) (p % (row.k + row.r))) := by
    rw [inRow_unitAt (Nat.lt_succ_of_lt ha) hc, Nat.div_add_mod']
  have hfinal : finalParity policy C R false (unitAt ((R + 1) * (row.k + row.r)) p) = 0#_ := by
    rw [he, finalParity_inRow policy _ ha,
      repeatPasses_rowPass_unitAt policy (h.code.decodeBlock_unitAt h.oneError hc), inRow_zero (Nat.lt_succ_of_lt ha)]
  have hconsistent : inconsistentParity C R false 0#((R + 1) * (row.k + row.r)) = false := by
    rw [inconsistentParity_eq_false, ← inRow_zero (Nat.lt_succ_of_lt ha), violations_inRow C _ (Nat.lt_succ_of_lt ha),
      inRow_zero (Nat.lt_succ_of_lt ha)]
    exact ⟨fun a _ => by rw [rowOf_zero, syndrome_zero], rfl⟩
  rw [decodeParity_of_errors policy (matrixParity_codewordRows info) (violations_matrixParity info) htx, hfinal,
    hconsistent, takeInfo_zero, takeInfo_matrixParity, BitVec.zero_xor, BitVec.zero_xor, weight_unitAt hplt]

omit h in
/-- A wrong bit in the parity row is never corrected (41_bptc.md R209, R216). -/
theorem decodeParity_parityBit (policy : RowPolicy) (info : BitVec (R * row.k)) {tx : BitVec ((R + 1) * (row.k + row.r))}
    {p : Nat} (hp : R * (row.k + row.r) ≤ p) (hplt : p < (R + 1) * (row.k + row.r))
    (htx : scatter map tx = unitAt _ p ^^^ matrixParity C R odd info) :
    decodeParity policy C R odd map tx = (info, ⟨(R + 1) * (row.k + row.r), 0, true⟩) := by
  obtain ⟨c, rfl⟩ : ∃ c, p = R * (row.k + row.r) + c := ⟨p - R * (row.k + row.r), by omega⟩
  have hc : c < row.k + row.r := by
    rw [Nat.succ_mul] at hplt
    omega
  have hR : R < R + 1 := Nat.lt_succ_self R
  rw [← inRow_unitAt hR hc] at htx
  have hempty : ∀ a, a < R → rowOf C (inRow R R (unitAt (row.k + row.r) c)) a = 0#_ := fun a ha => by
    rw [rowOf_inRow C _ hR, if_neg (Nat.ne_of_lt ha)]
  have hrows : CodewordRows C R (scatter map tx) := by
    rw [htx, codewordRows_xor_iff (matrixParity_codewordRows info)]
    exact fun a ha => by rw [hempty a ha, syndrome_zero]
  have hviolated : violations C R odd (scatter map tx) = unitAt (row.k + row.r) c := by
    rw [htx, violations_xor, violations_matrixParity, violations_inRow C _ hR, BitVec.xor_zero]
  have hinfo : takeInfo C R (scatter map tx) = info := by
    rw [htx, takeInfo_xor, takeInfo_congr C (m' := 0#((R + 1) * (row.k + row.r))) fun a ha => by
      rw [hempty a ha, rowOf_zero], takeInfo_zero, takeInfo_matrixParity, BitVec.zero_xor]
  have hne : unitAt (row.k + row.r) c ≠ 0#_ := fun hzero => by
    have hweight := weight_unitAt hc
    simp [hzero] at hweight
  rw [decodeParity_of_codewordRows policy hrows, hviolated, hinfo, bne_iff_ne.mpr hne]

/-- Round trip and single errors (41_bptc.md R216). -/
theorem parityRoundTrip :
    ParityRoundTrip enc dec (R * row.k) ((R + 1) * (row.k + row.r)) (R * (row.k + row.r)) position := by
  intro s info hinfo
  refine ⟨encodeParity C R odd map info, h.enc_completes hinfo, fun s' => ⟨fun htx => ?_, fun j hj htx => ⟨fun hdata => ?_,
    fun hparity => ?_⟩⟩⟩
  · exact h.dec_completes htx (h.decodeParity_encodeParity _ info)
  · exact h.dec_completes htx (h.decodeParity_dataBit _ info hdata (h.scatter_encodeParity_xor info hj))
  · exact h.dec_completesUncorrectable htx
      (decodeParity_parityBit _ info hparity (h.isMap.position_lt hj) (h.scatter_encodeParity_xor info hj))

/-- Two wrong bits in one data row leave column parities violated: the row code has distance 3 or more, so the row decoder
does not take both away, and no other row changes. -/
theorem decodeParity_rowPair (policy : RowPolicy) (info : BitVec (R * row.k)) {tx : BitVec ((R + 1) * (row.k + row.r))}
    {a c d : Nat} (ha : a < R) (hc : c < row.k + row.r) (hd : d < row.k + row.r) (hcd : c ≠ d)
    (htx : scatter map tx = unitAt _ (a * (row.k + row.r) + c) ^^^ unitAt _ (a * (row.k + row.r) + d) ^^^
      matrixParity C R odd info) :
    (decodeParity policy C R odd map tx).2.uncorrectable = true := by
  have ha' : a < R + 1 := Nat.lt_succ_of_lt ha
  obtain ⟨hradius, -, -, -, -⟩ := h.code.agrees
  have hweight := weight_unitAt_xor_unitAt hc hd hcd
  have hleft := repeatPasses_rowPass_ne_zero policy
    (decodeBlock_ne_zero (C := C) (show C.radius < weight _ by rw [hweight, hradius, h.oneError]; decide))
  rw [← inRow_unitAt ha' hc, ← inRow_unitAt ha' hd, ← inRow_xor _ _ ha'] at htx
  rw [decodeParity_of_errors policy (matrixParity_codewordRows info) (violations_matrixParity info) htx,
    finalParity_inRow policy _ ha]
  change inconsistentParity C R false _ = true
  rw [← Bool.not_eq_false, inconsistentParity_eq_false, violations_inRow C _ ha']
  exact fun hconsistent => hleft hconsistent.2

theorem rowPairReported :
    RowPairReported enc dec (R * row.k) ((R + 1) * (row.k + row.r)) (row.k + row.r) R position := by
  intro s info hinfo
  refine ⟨encodeParity C R odd map info, h.enc_completes hinfo, fun s' i j hi hj hij hrow hdata htx => ?_⟩
  have hpos : 0 < row.k + row.r := Nat.pos_of_lt_mul_left hi
  have hmatrix : scatter map (encodeParity C R odd map info ^^^ unitAt _ i ^^^ unitAt _ j) =
      unitAt _ (position i) ^^^ unitAt _ (position j) ^^^ matrixParity C R odd info := by
    rw [scatter_xor, h.scatter_encodeParity_xor info hi, h.isMap.scatter_unitAt hj]
    ac_rfl
  rw [← Nat.div_add_mod' (position i) (row.k + row.r), ← Nat.div_add_mod' (position j) (row.k + row.r), ← hrow] at hmatrix
  have hne : position i % (row.k + row.r) ≠ position j % (row.k + row.r) := fun hmod => by
    refine hij (h.isMap.position_inj hi hj ?_)
    rw [← Nat.div_add_mod' (position i) (row.k + row.r), hrow, hmod, Nat.div_add_mod']
  refine ⟨_, h.dec_eq htx, ?_, ?_⟩
  · rw [resultDecoded_resBits]
    exact toNat_ofNat_of_le h.short
  · rw [resultDecoded_resUnc]
    exact h.decodeParity_rowPair _ info hdata (Nat.mod_lt _ hpos) (Nat.mod_lt _ hpos) hne hmatrix

omit h in
/-- A matrix of the one parity, decoded by the other: its rows are codewords and every column is violated. -/
theorem decodeParity_wrongParity {odd' : Bool} (hodd : odd' = !odd) (hpos : 0 < row.k + row.r) (policy : RowPolicy)
    {info : BitVec (R * row.k)} {tx : BitVec ((R + 1) * (row.k + row.r))}
    (htx : scatter map tx = matrixParity C R odd info) :
    decodeParity policy C R odd' map tx = (info, ⟨(R + 1) * (row.k + row.r), 0, true⟩) := by
  have hrows : CodewordRows C R (scatter map tx) := htx ▸ matrixParity_codewordRows info
  have hviolated : violations C R odd' (scatter map tx) ≠ 0#(row.k + row.r) := fun hzero => by
    have hbit := violations_not C odd (scatter map tx) hpos (R := R)
    rw [← hodd, hzero, htx, violations_matrixParity] at hbit
    simp at hbit
  rw [decodeParity_of_codewordRows policy hrows, bne_iff_ne.mpr hviolated, htx, takeInfo_matrixParity]

/-- Two commands of the same code but for the column parity: each decoder reports the other's vectors, and leaves their
information bits (41_bptc.md R227). -/
theorem wrongParity_reported {enc' dec' : Instr} {odd' : Bool} (h' : ParityRealizes enc' dec' row C R odd' map position)
    (hodd : odd' = !odd) (hpos : 0 < row.k + row.r) {s : State} {info : BitVec (R * row.k)} (hinfo : HoldsOperand s info) :
    ∃ tx tx' : BitVec ((R + 1) * (row.k + row.r)), Completes (exec enc s) s tx 0 0 false ∧
      Completes (exec enc' s) s tx' 0 0 false ∧ ∀ s' : State,
        (HoldsOperand s' tx → CompletesUncorrectable (exec dec' s') s' info ((R + 1) * (row.k + row.r)) 0) ∧
        (HoldsOperand s' tx' → CompletesUncorrectable (exec dec s') s' info ((R + 1) * (row.k + row.r)) 0) := by
  refine ⟨_, _, h.enc_completes hinfo, h'.enc_completes hinfo, fun s' => ⟨fun htx => ?_, fun htx => ?_⟩⟩
  · exact h'.dec_completesUncorrectable htx (decodeParity_wrongParity hodd hpos _ (h.scatter_encodeParity info))
  · exact h.dec_completesUncorrectable htx
      (decodeParity_wrongParity (by rw [hodd, Bool.not_not]) hpos _ (h'.scatter_encodeParity info))

end ParityRealizes

/-- Settles O31. -/
theorem parityColumnEncoders : Obligations.ParityColumnEncoders :=
  ⟨cach_realizes.parityEncodes, elc_realizes.parityEncodes, sbEven_realizes.parityEncodes, sbOdd_realizes.parityEncodes,
    sbRc_realizes.parityEncodes⟩

/-- Settles O32. -/
theorem parityColumnDecodersReportTheirMatrix : Obligations.ParityColumnDecodersReportTheirMatrix :=
  ⟨cach_realizes.parityReports, elc_realizes.parityReports, sbEven_realizes.parityReports, sbOdd_realizes.parityReports,
    sbRc_realizes.parityReports⟩

/-- Settles O33. -/
theorem parityColumnRoundTrips : Obligations.ParityColumnRoundTrips :=
  ⟨cach_realizes.parityRoundTrip, elc_realizes.parityRoundTrip, sbEven_realizes.parityRoundTrip,
    sbRc_realizes.parityRoundTrip⟩

/-- Settles O57. -/
theorem twoErrorsInADataRowAreReported : Obligations.TwoErrorsInADataRowAreReported :=
  ⟨cach_realizes.rowPairReported, elc_realizes.rowPairReported, sbEven_realizes.rowPairReported,
    sbRc_realizes.rowPairReported⟩

/-- Settles O34. -/
theorem wrongColumnParityIsReported : Obligations.WrongColumnParityIsReported :=
  fun _ _ hinfo => sbEven_realizes.wrongParity_reported sbRc_realizes rfl (by decide) hinfo

end Sys2Proof.Machine
end

section
/-! The trellis tables (42_trellis.md R263 to R269): the table is the formula, the inverse table and the constellation are
inverses, and the interleave list is the rule of R268. -/

namespace Sys2Proof.Machine

/-- Settles O39. -/
theorem trellisTableIsTheFormula : Obligations.TrellisTableIsTheFormula := by
  intro s
  refine ⟨?_, fun t t' h => ?_⟩
  · revert s
    decide
  · exact Option.some.inj (by rw [← trellisInverse_trellisPoint s t, h, trellisInverse_trellisPoint])

theorem ofNat_pointFormula (s t : BitVec 3) : BitVec.ofNat 4 (pointFormula s.toNat t.toNat) = trellisPoint s t := by
  obtain ⟨hpoint, -⟩ := (trellisTableIsTheFormula s).1 t
  rw [← hpoint, BitVec.ofNat_toNat, BitVec.setWidth_eq]

theorem pointFormula_eq_iff {s t : BitVec 3} {p : BitVec 4} :
    pointFormula s.toNat t.toNat = p.toNat ↔ trellisPoint s t = p := by
  obtain ⟨hpoint, -⟩ := (trellisTableIsTheFormula s).1 t
  rw [← hpoint, BitVec.toNat_inj]

/-- The sentinel of R269: no tribit gives the point. -/
theorem trellisInverse_eq_none {s : BitVec 3} {p : BitVec 4} : trellisInverse s p = none ↔ ∀ t, trellisPoint s t ≠ p := by
  refine ⟨fun h t ht => ?_, fun h => ?_⟩
  · rw [← ht, trellisInverse_trellisPoint] at h
    cases h
  · rw [Option.eq_none_iff_forall_ne_some]
    exact fun t ht => h t (trellisInverse_some ht)

@[simp] theorem constellation_pointOf (pair : Dibit × Dibit) : constellation (pointOf pair) = pair := by
  obtain ⟨first, second⟩ := pair
  cases first <;> cases second <;> rfl

theorem interleaveRom_isTransmitMap : IsTransmitMap interleaveRom 98 fun j => interleaveRom.getD j 98 :=
  ⟨interleaveRom_perm, fun _ _ => rfl⟩

/-- The list of R268 is its rule. -/
theorem idxOf_interleaveRom {d : Nat} (hd : d < 98) : interleaveRom.idxOf d = dibitSlot d := by
  revert d
  decide +kernel

end Sys2Proof.Machine
end

section
/-! The symbol sequence of the trellis (42_trellis.md R262, R265 to R268, R270, R272): which entry of each sequence stands
where, and reading a sequence back from the vector it was written to. -/

namespace Sys2Proof.Machine

theorem getD_cons_eq_ite {α : Type} (a : α) (l : List α) (i : Nat) (d : α) :
    (a :: l).getD i d = if i = 0 then a else l.getD (i - 1) d := by
  cases i <;> rfl

@[simp] theorem length_tribitsOf (b : BitVec 144) : (tribitsOf b).length = 49 := by simp [tribitsOf]

/-- The data tribits and then the flush tribit (42_trellis.md R262). -/
theorem getD_tribitsOf (b : BitVec 144) {i : Nat} (hi : i < 49) :
    (tribitsOf b).getD i 0#3 = if i < 48 then slice b (3 * i) 3 else 0#3 := by
  by_cases hdata : i < 48
  · rw [tribitsOf, List.getD_append _ _ _ _ (by simpa using hdata)]
    simp [hdata]
  · obtain rfl : i = 48 := by omega
    simp [tribitsOf]

@[simp] theorem length_pointsFrom (s : BitVec 3) (ts : List (BitVec 3)) : (pointsFrom s ts).length = ts.length := by
  induction ts generalizing s with
  | nil => rfl
  | cons t ts ih => simp [pointsFrom, ih]

/-- The state before tribit `i` is the tribit before it (42_trellis.md R265). -/
theorem getD_pointsFrom (s : BitVec 3) {ts : List (BitVec 3)} {i : Nat} (hi : i < ts.length) :
    (pointsFrom s ts).getD i 0#4 = trellisPoint ((s :: ts).getD i 0#3) (ts.getD i 0#3) := by
  induction ts generalizing s i with
  | nil => cases hi
  | cons t ts ih =>
    cases i with
    | zero => rfl
    | succ i => exact ih t (Nat.lt_of_succ_lt_succ hi)

/-- The dibits of point `i` are dibits 2i and 2i+1 (42_trellis.md R266). -/
theorem getD_dibitsOf {points : List (BitVec 4)} {i : Nat} (hi : i < points.length) :
    (dibitsOf points).getD (2 * i) .plus1 = (constellation (points.getD i 0#4)).1 ∧
      (dibitsOf points).getD (2 * i + 1) .plus1 = (constellation (points.getD i 0#4)).2 := by
  induction points generalizing i with
  | nil => cases hi
  | cons p points ih =>
    cases i with
    | zero => exact ⟨rfl, rfl⟩
    | succ i => exact ih (Nat.lt_of_succ_lt_succ hi)

/-- Dibit `d` of the sequence is sent in the slot of R268. -/
theorem slice_transmitDibits (ds : List Dibit) {d : Nat} (hd : d < 98) :
    slice (transmitDibits ds) (2 * interleaveRom.idxOf d) 2 = dibitBits (ds.getD d .plus1) := by
  have hslot := interleaveRom_isTransmitMap.idxOf_lt hd
  have hentry : interleaveRom.getD (interleaveRom.idxOf d) 98 = d := interleaveRom_isTransmitMap.position_idxOf hd
  refine eq_of_bits fun j hj => ?_
  have hin : 2 * interleaveRom.idxOf d + j < 196 := by omega
  have hdiv : (2 * interleaveRom.idxOf d + j) / 2 = interleaveRom.idxOf d := by omega
  have hmod : (2 * interleaveRom.idxOf d + j) % 2 = j := by omega
  simp only [getMsbD_slice, transmitDibits, getMsbD_ofBits, hdiv, hmod, hentry, hj, hin, decide_true, Bool.true_and]

theorem receivedDibit_transmitDibits (ds : List Dibit) {d : Nat} (hd : d < 98) :
    receivedDibit (transmitDibits ds) d = ds.getD d .plus1 := by
  rw [receivedDibit, slice_transmitDibits ds hd, dibitOf_dibitBits]

@[simp] theorem length_receivedPoints (tx : BitVec 196) : (receivedPoints tx).length = 49 := by simp [receivedPoints]

theorem getD_receivedPoints (tx : BitVec 196) {i : Nat} (hi : i < 49) :
    (receivedPoints tx).getD i 0#4 = pointOf (receivedDibit tx (2 * i), receivedDibit tx (2 * i + 1)) := by
  simp [receivedPoints, hi]

/-- The received vector holds the dibits of each received point where R268 places them (42_trellis.md R270). -/
theorem slice_receivedPoints (tx : BitVec 196) {i : Nat} (hi : i < 49) :
    slice tx (2 * dibitSlot (2 * i)) 2 = dibitBits (constellation ((receivedPoints tx).getD i 0#4)).1 ∧
      slice tx (2 * dibitSlot (2 * i + 1)) 2 = dibitBits (constellation ((receivedPoints tx).getD i 0#4)).2 := by
  rw [getD_receivedPoints tx hi, constellation_pointOf, ← idxOf_interleaveRom (by omega), ← idxOf_interleaveRom (by omega)]
  exact ⟨(dibitBits_dibitOf _).symm, (dibitBits_dibitOf _).symm⟩

/-- The decoder reads back the points that were sent. -/
theorem receivedPoints_transmitDibits {points : List (BitVec 4)} (hlen : points.length = 49) :
    receivedPoints (transmitDibits (dibitsOf points)) = points := by
  refine List.ext_getElem (by rw [length_receivedPoints, hlen]) fun i hi hi' => ?_
  have hi49 : i < 49 := hlen ▸ hi'
  obtain ⟨hfirst, hsecond⟩ := getD_dibitsOf hi'
  rw [← List.getD_eq_getElem _ 0#4 hi, ← List.getD_eq_getElem _ 0#4 hi', getD_receivedPoints _ hi49,
    receivedDibit_transmitDibits _ (by omega), receivedDibit_transmitDibits _ (by omega), hfirst, hsecond,
    Prod.mk.eta, pointOf_constellation]

theorem receivedPoints_encodeTrellis (b : BitVec 144) :
    receivedPoints (encodeTrellis b) = pointsFrom 0#3 (tribitsOf b) :=
  receivedPoints_transmitDibits (by rw [length_pointsFrom, length_tribitsOf])

theorem slice_packTribits (out : List (BitVec 3)) {i : Nat} (hi : i < 48) :
    slice (packTribits out) (3 * i) 3 = out.getD i 0#3 := by
  refine eq_of_bits fun j hj => ?_
  have hin : 3 * i + j < 144 := by omega
  have hdiv : (3 * i + j) / 3 = i := by omega
  have hmod : (3 * i + j) % 3 = j := by omega
  simp only [getMsbD_slice, packTribits, getMsbD_ofBits, hdiv, hmod, hj, hin, decide_true, Bool.true_and]

/-- The tribits of the data, packed again (42_trellis.md R262, R272). -/
theorem packTribits_tribitsOf (b : BitVec 144) : packTribits (tribitsOf b) = b := by
  refine eq_of_bits fun j hj => ?_
  have hdata : j / 3 < 48 := by omega
  have hmod : j % 3 < 3 := Nat.mod_lt j (by decide)
  simp only [packTribits, getMsbD_ofBits, getD_tribitsOf b (Nat.lt_succ_of_lt hdata), hdata, if_true, getMsbD_slice, hj,
    hmod, decide_true, Bool.true_and, Nat.div_add_mod]

end Sys2Proof.Machine
end

section
/-! The decoder's transitions (42_trellis.md R271): on a path, after a path, and symbol by symbol on any points. -/

namespace Sys2Proof.Machine

/-- Along a path the decoder puts out the path and counts nothing; it goes on from the path's last state. -/
theorem decodePoints_pointsFrom_append (s : BitVec 3) (path : List (BitVec 3)) (rest : List (BitVec 4)) :
    decodePoints s (pointsFrom s path ++ rest) =
      (path ++ (decodePoints (path.getLastD s) rest).1, (decodePoints (path.getLastD s) rest).2) := by
  induction path generalizing s with
  | nil => rfl
  | cons t path ih =>
    rw [List.getLastD_cons]
    simp [pointsFrom, decodePoints, ih t]

theorem decodePoints_pointsFrom (s : BitVec 3) (path : List (BitVec 3)) : decodePoints s (pointsFrom s path) = (path, 0) := by
  simpa using decodePoints_pointsFrom_append s path []

/-- With nothing counted, the points are the path of what was put out. -/
theorem pointsFrom_decodePoints {s : BitVec 3} {points : List (BitVec 4)} (h : (decodePoints s points).2 = 0) :
    pointsFrom s (decodePoints s points).1 = points := by
  induction points generalizing s with
  | nil => rfl
  | cons p points ih =>
    rcases decodePoints_cons_cases s p points with ⟨t, ht, hcons⟩ | ⟨-, hcons⟩ <;> rw [hcons] at h ⊢
    · rw [pointsFrom, trellisInverse_some ht, ih h]
    · cases h

theorem decodePoints_count_eq_zero_iff {s : BitVec 3} {points : List (BitVec 4)} :
    (decodePoints s points).2 = 0 ↔ ∃ path, pointsFrom s path = points :=
  ⟨fun h => ⟨_, pointsFrom_decodePoints h⟩, fun ⟨path, hpath⟩ => by rw [← hpath, decodePoints_pointsFrom]⟩

/-- A point that no tribit gives is counted (42_trellis.md R271). -/
theorem decodePoints_count_pos {s : BitVec 3} {bad : BitVec 4} (hbad : ∀ t, trellisPoint s t ≠ bad)
    (rest : List (BitVec 4)) : 1 ≤ (decodePoints s (bad :: rest)).2 := by
  simp [decodePoints, trellisInverse_eq_none.mpr hbad]

/-- Symbol `i`, from the tribit put out before it: the tribit that gives the point, or that tribit again. -/
theorem decodePoints_symbol (s : BitVec 3) {points : List (BitVec 4)} {i : Nat} (hi : i < points.length) :
    trellisPoint ((s :: (decodePoints s points).1).getD i 0#3) ((decodePoints s points).1.getD i 0#3) = points.getD i 0#4 ∨
      (∀ t, trellisPoint ((s :: (decodePoints s points).1).getD i 0#3) t ≠ points.getD i 0#4) ∧
        (decodePoints s points).1.getD i 0#3 = (s :: (decodePoints s points).1).getD i 0#3 := by
  induction points generalizing s i with
  | nil => cases hi
  | cons p points ih =>
    rcases decodePoints_cons_cases s p points with ⟨t, ht, hcons⟩ | ⟨hnone, hcons⟩ <;> rw [hcons]
    · cases i with
      | zero => exact .inl (trellisInverse_some ht)
      | succ i => exact ih t (Nat.lt_of_succ_lt_succ hi)
    · cases i with
      | zero => exact .inr ⟨trellisInverse_eq_none.mp hnone, rfl⟩
      | succ i => exact ih s (Nat.lt_of_succ_lt_succ hi)

/-- The count is the number of symbols whose point no tribit gives from the tribit put out before. -/
theorem decodePoints_count (s : BitVec 3) (points : List (BitVec 4)) :
    (decodePoints s points).2 = (List.range points.length).countP fun i =>
      decide (∀ t, trellisPoint ((s :: (decodePoints s points).1).getD i 0#3) t ≠ points.getD i 0#4) := by
  induction points generalizing s with
  | nil => rfl
  | cons p points ih =>
    rw [List.length_cons, List.range_succ_eq_map, List.countP_cons, List.countP_map]
    rcases decodePoints_cons_cases s p points with ⟨t, ht, hcons⟩ | ⟨hnone, hcons⟩ <;> rw [hcons]
    · have hvalid : ¬ ∀ t, trellisPoint s t ≠ p := fun h => h t (trellisInverse_some ht)
      rw [ih t]
      simp [Function.comp_def, hvalid]
    · have hinvalid : ∀ t, trellisPoint s t ≠ p := trellisInverse_eq_none.mp hnone
      rw [ih s]
      simp [Function.comp_def, hinvalid]

end Sys2Proof.Machine
end

section
/-! The trellis commands (42_trellis.md R270 to R273, R275, R276). -/

namespace Sys2Proof.Machine

theorem trl34Enc_completes {s : State} {b : BitVec 144} (hb : HoldsOperand s b) :
    Completes (exec (.trl34Enc 0#8 144#16) s) s (encodeTrellis b) 0 0 false := by
  rw [exec_of_holdsOperand (i := .trl34Enc 0#8 144#16) hb rfl rfl]
  exact resultPlain_completes _ s (by decide)

theorem trl34Dec_completes {s : State} {tx : BitVec 196} (htx : HoldsOperand s tx) :
    Completes (exec (.trl34Dec 0#8 196#16) s) s (packTribits (decodePoints 0#3 (receivedPoints tx)).1) 196
      (decodePoints 0#3 (receivedPoints tx)).2 false := by
  rw [exec_of_holdsOperand (i := .trl34Dec 0#8 196#16) htx rfl rfl]
  exact resultDecoded_completes tx s (by decide) (decodeTrellis_bounded tx) rfl

/-- Settles O40. -/
theorem trellisEncodePlacesEverySymbol : Obligations.TrellisEncodePlacesEverySymbol := by
  intro s b hb
  refine ⟨encodeTrellis b, trl34Enc_completes hb, fun i hi => ?_⟩
  intro tribit point
  have htribit : ∀ n, n < 49 → ((tribitsOf b).getD n 0#3).toNat = tribit n := fun n hn => by
    rw [getD_tribitsOf b hn, apply_ite BitVec.toNat]
    rfl
  have hstate : ((0#3 :: tribitsOf b).getD i 0#3).toNat = if i = 0 then 0 else tribit (i - 1) := by
    rw [getD_cons_eq_ite, apply_ite BitVec.toNat, htribit _ (by omega)]
    rfl
  have hpoint : (receivedPoints (encodeTrellis b)).getD i 0#4 = point := by
    rw [receivedPoints_encodeTrellis, getD_pointsFrom 0#3 (by rwa [length_tribitsOf]), ← ofNat_pointFormula, hstate,
      htribit i hi]
  exact hpoint ▸ slice_receivedPoints (encodeTrellis b) hi

/-- Settles O41. -/
theorem trellisRoundTrip : Obligations.TrellisRoundTrip := by
  intro s b hb
  refine ⟨encodeTrellis b, trl34Enc_completes hb, fun s' htx => ?_⟩
  have hdec := trl34Dec_completes htx
  rwa [receivedPoints_encodeTrellis, decodePoints_pointsFrom, packTribits_tribitsOf] at hdec

/-- Settles O42. -/
theorem trellisDecodeFollowsThePolicy : Obligations.TrellisDecodeFollowsThePolicy := by
  intro s tx htx
  refine ⟨packTribits (decodePoints 0#3 (receivedPoints tx)).1, receivedPoints tx,
    (decodePoints 0#3 (receivedPoints tx)).1, ?_⟩
  intro state point
  have hstate : ∀ i, (0#3 :: (decodePoints 0#3 (receivedPoints tx)).1).getD i 0#3 = state i := fun i =>
    getD_cons_eq_ite _ _ i _
  have hdec := trl34Dec_completes htx
  rw [decodePoints_count, length_receivedPoints] at hdec
  simp only [Ne, pointFormula_eq_iff, ← hstate]
  refine ⟨hdec, fun i hi => slice_packTribits _ hi, fun i hi => ?_⟩
  obtain ⟨hfirst, hsecond⟩ := slice_receivedPoints tx hi
  exact ⟨hfirst, hsecond, decodePoints_symbol 0#3 (by rwa [length_receivedPoints])⟩

/-- Settles O43. -/
theorem trellisDecodeCountsExactlyTheOffPathWords : Obligations.TrellisDecodeCountsExactlyTheOffPathWords := by
  intro s tx htx
  refine ⟨_, _, trl34Dec_completes htx, decodeTrellis_count_le tx, decodePoints_count_eq_zero_iff,
    fun tribits hpath i hi => ?_⟩
  rw [slice_packTribits _ hi, ← hpath, decodePoints_pointsFrom]

/-- Settles O44. -/
theorem trellisInvalidSymbolIsCounted : Obligations.TrellisInvalidSymbolIsCounted := by
  intro s tx path bad rest htx hpoints hbad
  obtain ⟨t, hexec, -, ⟨-, herr, hunc⟩, -⟩ := trl34Dec_completes htx
  refine ⟨t, hexec, ?_, hunc⟩
  rw [herr, hpoints, decodePoints_pointsFrom_append]
  exact decodePoints_count_pos hbad rest

end Sys2Proof.Machine
end

section
/-! GF(256) (43_reed_solomon.md R290 to R293): multiplication by z is linear, every non-zero byte is a power of α, and a product
of powers adds the exponents. The arithmetic by the tables is the field's. -/

namespace Sys2Proof.Machine

theorem timesZ_xor (a b : Byte) : timesZ (a ^^^ b) = timesZ a ^^^ timesZ b := by
  simp only [timesZ, BitVec.shiftLeft_xor_distrib, BitVec.getMsbD_xor]
  have hcancel : ∀ u v c : Byte, (u ^^^ c) ^^^ (v ^^^ c) = u ^^^ v := fun u v c => by
    rw [BitVec.xor_comm v, BitVec.xor_assoc, ← BitVec.xor_assoc c, BitVec.xor_self, BitVec.zero_xor]
  cases a.getMsbD 0 <;> cases b.getMsbD 0 <;> simp [hcancel] <;> ac_rfl

/-- Multiplication distributes over a sum on the left: each round of shift-and-reduce is linear. -/
theorem gfTimes_xor_left (a a' b : Byte) : gfTimes (a ^^^ a') b = gfTimes a b ^^^ gfTimes a' b := by
  refine List.foldl_hom₂ (List.range 8) (fun u v : Byte => u ^^^ v) _ _ _ 0#8 0#8 fun u v i => ?_
  rw [timesZ_xor]
  cases b.getMsbD i
  · simp
  · simp only [if_true]
    ac_rfl

/-- Multiplication by z comes out of the left factor. -/
theorem gfTimes_timesZ (a b : Byte) : gfTimes (timesZ a) b = timesZ (gfTimes a b) := by
  have hzero : timesZ 0#8 = 0#8 := rfl
  refine List.foldl_hom timesZ (init := 0#8) fun u i => ?_
  rw [timesZ_xor]
  cases b.getMsbD i <;> simp [hzero]

@[simp] theorem gfTimes_zero_left (b : Byte) : gfTimes 0#8 b = 0#8 := by
  simpa using gfTimes_xor_left 0#8 0#8 b

@[simp] theorem gfTimes_zero_right (a : Byte) : gfTimes a 0#8 = 0#8 :=
  List.foldl_fixed' (fun _ => by simp [timesZ]) _

theorem gfTimes_one_left : ∀ b : Byte, gfTimes 0x01#8 b = b := by decide +kernel

/-! #### Powers of α -/

/-- A product of powers adds the exponents. -/
theorem gfTimes_alphaRef (m n : Nat) : gfTimes (alphaRef m) (alphaRef n) = alphaRef (m + n) := by
  induction m with
  | zero => rw [Nat.zero_add, alphaRef, gfTimes_one_left]
  | succ m ih => rw [alphaRef, gfTimes_timesZ, ih, Nat.add_right_comm, alphaRef]

theorem gfExp_succ : ∀ i, i < 254 → gfExp (i + 1) = timesZ (gfExp i) := by decide +kernel

/-- GF_EXP is the list of the powers of α. -/
theorem gfExp_eq_alphaRef {i : Nat} (hi : i < 255) : gfExp i = alphaRef i := by
  induction i with
  | zero => rfl
  | succ i ih => rw [gfExp_succ i (by omega), ih (by omega), alphaRef]

theorem gfLog_gfExp : ∀ i, i < 255 → gfLog (gfExp i) = i := by decide +kernel

theorem gfExp_gfLog : ∀ v : Byte, v ≠ 0#8 → gfLog v < 255 ∧ gfExp (gfLog v) = v := by decide +kernel

theorem gfExp_ne_zero : ∀ i, i < 255 → gfExp i ≠ 0#8 := by decide +kernel

theorem alphaRef_add_period (n : Nat) : alphaRef (n + 255) = alphaRef n := by
  have hperiod : alphaRef 255 = alphaRef 0 := by decide +kernel
  rw [← gfTimes_alphaRef, hperiod, gfTimes_alphaRef, Nat.add_zero]

theorem alphaRef_mod (n : Nat) : alphaRef (n % 255) = alphaRef n :=
  Function.Periodic.map_mod_nat alphaRef_add_period n

theorem alphaPow_eq_alphaRef (n : Nat) : alphaPow n = alphaRef n :=
  (gfExp_eq_alphaRef (Nat.mod_lt n (by decide))).trans (alphaRef_mod n)

theorem alphaRef_ne_zero (n : Nat) : alphaRef n ≠ 0#8 :=
  alphaPow_eq_alphaRef n ▸ gfExp_ne_zero _ (Nat.mod_lt n (by decide))

theorem gfLog_alphaRef {n : Nat} (hn : n < 255) : gfLog (alphaRef n) = n :=
  gfExp_eq_alphaRef hn ▸ gfLog_gfExp n hn

/-- Every non-zero byte is the power of α that GF_LOG names. -/
theorem alphaRef_gfLog {a : Byte} (ha : a ≠ 0#8) : alphaRef (gfLog a) = a := by
  obtain ⟨hlt, hexp⟩ := gfExp_gfLog a ha
  rw [← gfExp_eq_alphaRef hlt, hexp]

/-! #### The laws of the field -/

theorem gfTimes_comm (a b : Byte) : gfTimes a b = gfTimes b a := by
  rcases eq_or_ne a 0#8 with rfl | ha
  · simp
  rcases eq_or_ne b 0#8 with rfl | hb
  · simp
  rw [← alphaRef_gfLog ha, ← alphaRef_gfLog hb, gfTimes_alphaRef, gfTimes_alphaRef, Nat.add_comm]

theorem gfTimes_xor_right (a b b' : Byte) : gfTimes a (b ^^^ b') = gfTimes a b ^^^ gfTimes a b' := by
  simp only [gfTimes_comm a, gfTimes_xor_left]

theorem gfTimes_assoc (a b c : Byte) : gfTimes (gfTimes a b) c = gfTimes a (gfTimes b c) := by
  rcases eq_or_ne a 0#8 with rfl | ha
  · simp
  rcases eq_or_ne b 0#8 with rfl | hb
  · simp
  rcases eq_or_ne c 0#8 with rfl | hc
  · simp
  rw [← alphaRef_gfLog ha, ← alphaRef_gfLog hb, ← alphaRef_gfLog hc]
  simp only [gfTimes_alphaRef, Nat.add_assoc]

theorem gfTimes_left_comm (a b c : Byte) : gfTimes a (gfTimes b c) = gfTimes b (gfTimes a c) := by
  rw [← gfTimes_assoc, gfTimes_comm a, gfTimes_assoc]

@[simp] theorem gfTimes_eq_zero {a b : Byte} : gfTimes a b = 0#8 ↔ a = 0#8 ∨ b = 0#8 := by
  refine ⟨fun h => ?_, ?_⟩
  · by_contra hne
    obtain ⟨ha, hb⟩ := not_or.mp hne
    rw [← alphaRef_gfLog ha, ← alphaRef_gfLog hb, gfTimes_alphaRef] at h
    exact alphaRef_ne_zero _ h
  · rintro (rfl | rfl) <;> simp

theorem gfTimes_left_cancel {a b c : Byte} (ha : a ≠ 0#8) (h : gfTimes a b = gfTimes a c) : b = c := by
  rw [← BitVec.xor_eq_zero_iff, ← gfTimes_xor_right, gfTimes_eq_zero] at h
  exact BitVec.xor_eq_zero_iff.mp (h.resolve_left ha)

/-! #### The arithmetic of R293 -/

theorem gmul_eq_gfTimes (a b : Byte) : gmul a b = gfTimes a b := by
  unfold gmul
  split
  case isTrue hzero => exact (gfTimes_eq_zero.mpr hzero).symm
  case isFalse hne =>
    obtain ⟨ha, hb⟩ := not_or.mp hne
    calc gfExp ((gfLog a + gfLog b) % 255) = alphaRef (gfLog a + gfLog b) := alphaPow_eq_alphaRef _
      _ = gfTimes a b := by rw [← gfTimes_alphaRef, alphaRef_gfLog ha, alphaRef_gfLog hb]

/-- Division undoes multiplication by a non-zero byte. -/
theorem gfTimes_gdiv {b : Byte} (a : Byte) (hb : b ≠ 0#8) : gfTimes (gdiv a b) b = a := by
  unfold gdiv
  split
  case isTrue ha => rw [ha, gfTimes_zero_left]
  case isFalse ha =>
    obtain ⟨hlt, -⟩ := gfExp_gfLog b hb
    have hexponent : gfLog a + (255 - gfLog b) + gfLog b = gfLog a + 255 := by omega
    calc gfTimes (alphaPow (gfLog a + (255 - gfLog b))) b
        = gfTimes (alphaRef (gfLog a + (255 - gfLog b))) (alphaRef (gfLog b)) := by
          rw [alphaPow_eq_alphaRef, alphaRef_gfLog hb]
      _ = alphaRef (gfLog a) := by rw [gfTimes_alphaRef, hexponent, alphaRef_add_period]
      _ = a := alphaRef_gfLog ha

theorem gdiv_eq_iff {a b c : Byte} (hb : b ≠ 0#8) : gdiv a b = c ↔ a = gfTimes c b := by
  constructor
  · rintro rfl
    exact (gfTimes_gdiv a hb).symm
  · rintro rfl
    refine gfTimes_left_cancel hb ?_
    rw [gfTimes_comm b, gfTimes_gdiv _ hb, gfTimes_comm]

/-- Settles O45: the tables' recurrence, and GF_LOG as the inverse of GF_EXP on both sides. -/
theorem gfTablesArePowersOfAlpha : Obligations.GfTablesArePowersOfAlpha := by
  refine ⟨rfl, gfExp_succ, fun v hv => ?_⟩
  obtain ⟨hlt, hexp⟩ := gfExp_gfLog v hv
  refine ⟨hlt, hexp, fun i hi hiv => ?_⟩
  rw [← hiv, gfLog_gfExp i hi]

/-- Settles O46. -/
theorem tableArithmeticIsTheField : Obligations.TableArithmeticIsTheField :=
  ⟨gmul_eq_gfTimes, fun a _ hb => gfTimes_gdiv a hb⟩

end Sys2Proof.Machine
end

section
/-! Words of bytes (43_reed_solomon.md R294, R297): their bytes, their values at the powers of α, and what one wrong byte adds to
those values. -/

namespace Sys2Proof.Machine

/-! #### Bytes -/

/-- A slice of the first part of a concatenation. -/
theorem slice_append_of_le {m n : Nat} (a : BitVec m) (b : BitVec n) {first len : Nat} (h : first + len ≤ m) :
    slice (a ++ b) first len = slice a first len :=
  eq_of_bits fun i hi => by
    have hlt : first + i < m := by omega
    simp [hi, BitVec.getMsbD_append, hlt]

theorem byteAt_append_left {m n : Nat} (a : BitVec m) (b : BitVec n) {i : Nat} (hi : 8 * i + 8 ≤ m) :
    byteAt (a ++ b) i = byteAt a i :=
  slice_append_of_le a b hi

theorem byteAt_append_right {n k : Nat} (a : BitVec (8 * k)) (b : BitVec n) (i : Nat) :
    byteAt (a ++ b) (k + i) = byteAt b i :=
  eq_of_bits fun j hj => by
    have hge : ¬ 8 * (k + i) + j < 8 * k := by omega
    have hsub : 8 * (k + i) + j - 8 * k = 8 * i + j := by omega
    simp [hj, BitVec.getMsbD_append, hge, hsub]

@[simp] theorem byteAt_byte (b : Byte) : byteAt b 0 = b := slice_zero_full b

theorem byteAt_xor {n : Nat} (a b : BitVec n) (i : Nat) : byteAt (a ^^^ b) i = byteAt a i ^^^ byteAt b i :=
  slice_xor a b _ _

theorem byteAt_byteError_same {i : Nat} (y : Byte) (hi : i < 12) : byteAt (byteError i y) i = y :=
  slice_setSlice _ _ y (by omega)

theorem byteAt_byteError_other {i k : Nat} (y : Byte) (hik : k ≠ i) : byteAt (byteError i y) k = 0#8 := by
  refine (slice_setSlice_disjoint _ _ y _ _ (by omega)).trans (eq_of_bits fun j _ => ?_)
  simp

/-- Changing a byte is adding a byte error. -/
theorem xorByte_eq (b : BitVec 96) (i : Nat) (y : Byte) : xorByte b i y = b ^^^ byteError i y :=
  eq_of_bits fun p hp => by
    by_cases hin : 8 * i ≤ p ∧ p < 8 * i + 8
    · have hj : p - 8 * i < 8 := by omega
      have hplace : 8 * i + (p - 8 * i) = p := by omega
      simp [xorByte, byteError, hp, hin, hj, hplace]
    · simp [xorByte, byteError, hp, hin]

@[simp] theorem byteError_zero (i : Nat) : byteError i 0#8 = 0#96 :=
  eq_of_bits fun p hp => by simp [byteError]

/-! #### Sums of bytes -/

/-- `⊕ f(i)` over i = 0..n-1 (43_reed_solomon.md R297). -/
def byteSum (n : Nat) (f : Nat → Byte) : Byte := (List.range n).foldl (fun acc i => acc ^^^ f i) 0#8

@[simp] theorem byteSum_zero (f : Nat → Byte) : byteSum 0 f = 0#8 := rfl

theorem byteSum_succ (n : Nat) (f : Nat → Byte) : byteSum (n + 1) f = byteSum n f ^^^ f n := by
  simp [byteSum, List.range_succ]

theorem byteSum_congr {n : Nat} {f g : Nat → Byte} (h : ∀ i, i < n → f i = g i) : byteSum n f = byteSum n g :=
  List.foldl_ext _ _ _ fun u i hi => by rw [h i (List.mem_range.mp hi)]

theorem byteSum_xor (n : Nat) (f g : Nat → Byte) :
    byteSum n (fun i => f i ^^^ g i) = byteSum n f ^^^ byteSum n g := by
  induction n with
  | zero => simp
  | succ n ih =>
    simp only [byteSum_succ, ih]
    ac_rfl

theorem gfTimes_byteSum (n : Nat) (f : Nat → Byte) (x : Byte) :
    gfTimes (byteSum n f) x = byteSum n fun i => gfTimes (f i) x := by
  induction n with
  | zero => simp
  | succ n ih => rw [byteSum_succ, byteSum_succ, gfTimes_xor_left, ih]

/-- A sum whose terms but one are 0. -/
theorem byteSum_single {n i : Nat} {f : Nat → Byte} (hi : i < n) (h : ∀ k, k ≠ i → f k = 0#8) : byteSum n f = f i := by
  induction n with
  | zero => omega
  | succ n ih =>
    rw [byteSum_succ]
    rcases Nat.lt_or_eq_of_le (Nat.le_of_lt_succ hi) with hlt | rfl
    · rw [ih hlt, h n (by omega), BitVec.xor_zero]
    · have hzero : byteSum i f = byteSum i fun _ => 0#8 := byteSum_congr fun k hk => h k (by omega)
      have hall : byteSum i (fun _ => 0#8) = 0#8 := List.foldl_fixed' (fun _ => BitVec.xor_zero) _
      rw [hzero, hall, BitVec.zero_xor]

/-! #### Values at the powers of α -/

/-- Horner's rule at a power of α is the sum over the powers. -/
theorem horner_eq_byteSum (c : Nat → Byte) (j n : Nat) :
    (List.range n).foldl (fun acc i => gfTimes acc (alphaRef j) ^^^ c i) 0#8 =
      byteSum n fun i => gfTimes (c i) (alphaRef (j * (n - 1 - i))) := by
  induction n with
  | zero => rfl
  | succ n ih =>
    have hlast : gfTimes (c n) (alphaRef (j * (n + 1 - 1 - n))) = c n := by
      rw [Nat.add_sub_cancel, Nat.sub_self, Nat.mul_zero, gfTimes_comm]
      exact gfTimes_one_left _
    rw [List.range_succ, List.foldl_append, ih, byteSum_succ, hlast, List.foldl_cons, List.foldl_nil, gfTimes_byteSum]
    congr 1
    refine byteSum_congr fun i hi => ?_
    have hexponent : j * (n - 1 - i) + j = j * (n + 1 - 1 - i) := by
      rw [← Nat.mul_succ]
      congr 1
      omega
    rw [gfTimes_assoc, gfTimes_alphaRef, hexponent]

theorem rootValue_eq_byteSum (b : BitVec 96) (j : Nat) :
    rootValue b j = byteSum 12 fun i => gfTimes (byteAt b i) (alphaRef (j * (11 - i))) :=
  horner_eq_byteSum (byteAt b) j 12

/-- The syndromes by the tables are the values at α, α², α³ (43_reed_solomon.md R297). -/
theorem rsSyndrome_eq_rootValue (b : BitVec 96) (j : Nat) : rsSyndrome b j = rootValue b j := by
  rw [rootValue_eq_byteSum]
  exact byteSum_congr fun i _ => by rw [gmul_eq_gfTimes, alphaPow_eq_alphaRef]

theorem rootValue_xor (a b : BitVec 96) (j : Nat) : rootValue (a ^^^ b) j = rootValue a j ^^^ rootValue b j := by
  simp only [rootValue_eq_byteSum, byteAt_xor, gfTimes_xor_left]
  exact byteSum_xor _ _ _

/-- What one wrong byte adds to a value (43_reed_solomon.md R299). -/
theorem rootValue_byteError {i : Nat} (y : Byte) (j : Nat) (hi : i < 12) :
    rootValue (byteError i y) j = gfTimes y (alphaRef (j * (11 - i))) := by
  rw [rootValue_eq_byteSum, byteSum_single hi, byteAt_byteError_same y hi]
  intro k hk
  rw [byteAt_byteError_other y hk, gfTimes_zero_left]

theorem rsPasses_iff (b : BitVec 96) : rsPasses b = true ↔ IsRsCodeword b := by
  simp [rsPasses, IsRsCodeword, rsSyndrome_eq_rootValue, and_assoc]

end Sys2Proof.Machine
end

section
/-! The encoder's shift register (43_reed_solomon.md R295, R296): after every data byte it holds the check bytes of the message so
far, at each root of the generator polynomial. -/

namespace Sys2Proof.Machine

/-- At `x`, a message of value `h` followed by the register's three bytes has the value 0 (43_reed_solomon.md R295, R296). -/
def ChecksOf (x h : Byte) (reg : Byte × Byte × Byte) : Prop :=
  gfTimes (gfTimes (gfTimes h x ^^^ reg.1) x ^^^ reg.2.1) x ^^^ reg.2.2 = 0#8

/-- `x` is a root of `X³ + 0E X² + 38 X + 40` (43_reed_solomon.md R295). -/
def IsGeneratorRoot (x : Byte) : Prop :=
  gfTimes x (gfTimes x x) = gfTimes 0x0E#8 (gfTimes x x) ^^^ gfTimes 0x38#8 x ^^^ 0x40#8

theorem isGeneratorRoot_alphaRef {j : Nat} (hj : j ∈ [1, 2, 3]) : IsGeneratorRoot (alphaRef j) := by
  unfold IsGeneratorRoot
  revert j
  decide +kernel

/-- One data byte keeps the register right: with `f` its feedback byte, what the register gains is `f` times the value of the
generator polynomial. -/
theorem rsShift_checksOf {x h : Byte} {reg : Byte × Byte × Byte} (hx : IsGeneratorRoot x) (hreg : ChecksOf x h reg) (b : Byte) :
    ChecksOf x (gfTimes h x ^^^ b) (rsShift reg b) := by
  obtain ⟨r₀, r₁, r₂⟩ := reg
  obtain ⟨f, rfl⟩ : ∃ f, b = f ^^^ r₀ := ⟨b ^^^ r₀, by rw [BitVec.xor_assoc, BitVec.xor_self, BitVec.xor_zero]⟩
  have hfeedback : f ^^^ r₀ ^^^ r₀ = f := by rw [BitVec.xor_assoc, BitVec.xor_self, BitVec.xor_zero]
  unfold ChecksOf at hreg ⊢
  simp only [rsShift, hfeedback, gmul_eq_gfTimes] at hreg ⊢
  calc gfTimes (gfTimes (gfTimes (gfTimes h x ^^^ (f ^^^ r₀)) x ^^^ (r₁ ^^^ gfTimes f 0x0E#8)) x ^^^
          (r₂ ^^^ gfTimes f 0x38#8)) x ^^^ gfTimes f 0x40#8
      = gfTimes (gfTimes (gfTimes (gfTimes h x ^^^ r₀) x ^^^ r₁) x ^^^ r₂) x ^^^
          (gfTimes f (gfTimes x (gfTimes x x)) ^^^
            gfTimes f (gfTimes 0x0E#8 (gfTimes x x) ^^^ gfTimes 0x38#8 x ^^^ 0x40#8)) := by
        simp only [gfTimes_xor_left, gfTimes_xor_right, gfTimes_assoc]
        ac_rfl
    _ = 0#8 := by rw [hreg, hx, BitVec.xor_self, gfTimes_zero_left, BitVec.xor_zero]

theorem foldl_rsShift_checksOf {x : Byte} (hx : IsGeneratorRoot x) (bytes : List Byte) {h : Byte} {reg : Byte × Byte × Byte}
    (hreg : ChecksOf x h reg) :
    ChecksOf x (bytes.foldl (fun acc b => gfTimes acc x ^^^ b) h) (bytes.foldl rsShift reg) := by
  induction bytes generalizing h reg with
  | nil => exact hreg
  | cons b bytes ih => exact ih (rsShift_checksOf hx hreg b)

/-- Three bytes in a row, one by one. -/
theorem byteAt_three (c₀ c₁ c₂ : Byte) :
    byteAt (c₀ ++ c₁ ++ c₂) 0 = c₀ ∧ byteAt (c₀ ++ c₁ ++ c₂) 1 = c₁ ∧ byteAt (c₀ ++ c₁ ++ c₂) 2 = c₂ := by
  refine ⟨?_, ?_, ?_⟩
  · rw [byteAt_append_left _ _ (by decide), byteAt_append_left _ _ (by decide), byteAt_byte]
  · rw [byteAt_append_left _ _ (by decide)]
    exact (byteAt_append_right (k := 1) c₀ c₁ 0).trans (byteAt_byte c₁)
  · exact (byteAt_append_right (k := 2) (c₀ ++ c₁) c₂ 0).trans (byteAt_byte c₂)

/-- The value of nine data bytes and three check bytes: Horner's rule on the data, then on the checks. -/
theorem rootValue_append (data : BitVec 72) (c₀ c₁ c₂ : Byte) (j : Nat) :
    rootValue (data ++ (c₀ ++ c₁ ++ c₂ : BitVec 24)) j =
      gfTimes (gfTimes (gfTimes (((List.range 9).map (byteAt data)).foldl (fun acc b => gfTimes acc (alphaRef j) ^^^ b) 0#8)
        (alphaRef j) ^^^ c₀) (alphaRef j) ^^^ c₁) (alphaRef j) ^^^ c₂ := by
  obtain ⟨h₀, h₁, h₂⟩ := byteAt_three c₀ c₁ c₂
  have hcheck : ∀ i, byteAt (data ++ (c₀ ++ c₁ ++ c₂ : BitVec 24)) (9 + i) = byteAt (c₀ ++ c₁ ++ c₂) i :=
    byteAt_append_right (k := 9) data (c₀ ++ c₁ ++ c₂)
  have hdata : (List.range 9).foldl
        (fun acc i => gfTimes acc (alphaRef j) ^^^ byteAt (data ++ (c₀ ++ c₁ ++ c₂ : BitVec 24)) i) 0#8 =
      ((List.range 9).map (byteAt data)).foldl (fun acc b => gfTimes acc (alphaRef j) ^^^ b) 0#8 := by
    rw [List.foldl_map]
    refine List.foldl_ext _ _ _ fun u i hi => ?_
    have hlt := List.mem_range.mp hi
    rw [byteAt_append_left _ _ (by omega)]
  have hsplit : List.range 12 = List.range 9 ++ [9 + 0, 9 + 1, 9 + 2] := rfl
  rw [rootValue, hsplit, List.foldl_append, hdata]
  simp only [List.foldl_cons, List.foldl_nil, hcheck, h₀, h₁, h₂]

/-- The encoder's word is a codeword (43_reed_solomon.md R295, R296). -/
theorem encodeRs_isRsCodeword (data : BitVec 72) : IsRsCodeword (encodeRs data) := by
  have hroot : ∀ j ∈ [1, 2, 3], rootValue (encodeRs data) j = 0#8 := fun j hj => by
    have hempty : ChecksOf (alphaRef j) 0#8 (0#8, 0#8, 0#8) := by simp [ChecksOf]
    exact (rootValue_append data _ _ _ j).trans (foldl_rsShift_checksOf (isGeneratorRoot_alphaRef hj) _ hempty)
  exact ⟨hroot 1 (by simp), hroot 2 (by simp), hroot 3 (by simp)⟩

end Sys2Proof.Machine
end

section
/-! The correction (43_reed_solomon.md R299, R300): it corrects exactly the syndromes of one byte error, and the syndrome of two
byte errors is none of these. -/

namespace Sys2Proof.Machine

/-- `(s₁, s₂, s₃)` is the syndrome of the value `y` at byte 11−p (43_reed_solomon.md R299). -/
def IsByteSyndrome (p : Nat) (y s₁ s₂ s₃ : Byte) : Prop :=
  s₁ = gfTimes y (alphaRef p) ∧ s₂ = gfTimes y (alphaRef (2 * p)) ∧ s₃ = gfTimes y (alphaRef (3 * p))

theorem alphaRef_two_mul (p : Nat) : alphaRef (2 * p) = gfTimes (alphaRef p) (alphaRef p) := by
  rw [gfTimes_alphaRef, Nat.two_mul]

theorem alphaRef_three_mul (p : Nat) : alphaRef (3 * p) = gfTimes (alphaRef p) (gfTimes (alphaRef p) (alphaRef p)) := by
  rw [← alphaRef_two_mul, gfTimes_alphaRef]
  congr 1
  omega

/-- The locator equation of R300 holds of the syndrome of one byte error. -/
theorem IsByteSyndrome.square {p : Nat} {y s₁ s₂ s₃ : Byte} (h : IsByteSyndrome p y s₁ s₂ s₃) :
    gfTimes s₂ s₂ = gfTimes s₁ s₃ := by
  obtain ⟨rfl, rfl, rfl⟩ := h
  rw [alphaRef_two_mul, alphaRef_three_mul]
  simp only [gfTimes_comm, gfTimes_left_comm]

/-- Where the locator equation holds, the locator and the value of R300 are those of one byte error. -/
theorem isByteSyndrome_of_square {s₁ s₂ s₃ : Byte} (h₁ : s₁ ≠ 0#8) (h₂ : s₂ ≠ 0#8) (hsq : gfTimes s₂ s₂ = gfTimes s₁ s₃) :
    IsByteSyndrome (gfLog (gdiv s₂ s₁)) (gdiv (gfTimes s₁ s₁) s₂) s₁ s₂ s₃ := by
  have hX := gfTimes_gdiv s₂ h₁
  have hY := gfTimes_gdiv (gfTimes s₁ s₁) h₂
  generalize gdiv s₂ s₁ = X at hX ⊢
  generalize gdiv (gfTimes s₁ s₁) s₂ = y at hY ⊢
  have hX0 : X ≠ 0#8 := by
    rintro rfl
    exact h₂ (hX ▸ gfTimes_zero_left s₁)
  have hfirst : s₁ = gfTimes y X := gfTimes_left_cancel h₁ <| by
    rw [← hY, ← hX]
    simp only [gfTimes_comm, gfTimes_left_comm]
  have hsecond : s₂ = gfTimes y (gfTimes X X) := by
    rw [← gfTimes_assoc, ← hfirst, gfTimes_comm, hX]
  have hthird : s₃ = gfTimes y (gfTimes X (gfTimes X X)) := gfTimes_left_cancel h₁ <| by
    rw [gfTimes_left_comm y, ← hsecond, ← hsq, ← gfTimes_assoc, gfTimes_comm s₁, hX]
  rw [IsByteSyndrome, alphaRef_two_mul, alphaRef_three_mul, alphaRef_gfLog hX0]
  exact ⟨hfirst, hsecond, hthird⟩

/-- The syndrome of one byte error is corrected, the value 0 included (43_reed_solomon.md R300, R301). -/
theorem correctRs_of_isByteSyndrome (b : BitVec 96) {p : Nat} {y s₁ s₂ s₃ : Byte} (hp : p ≤ 11)
    (h : IsByteSyndrome p y s₁ s₂ s₃) : correctRs b s₁ s₂ s₃ = (b ^^^ byteError (11 - p) y, ⟨96, weight y, false⟩) := by
  have hsq := h.square
  obtain ⟨h₁, h₂, h₃⟩ := h
  rcases eq_or_ne y 0#8 with rfl | hy
  · simp [correctRs, h₁, h₂, h₃]
  have hne : ∀ n, gfTimes y (alphaRef n) ≠ 0#8 := fun n => by simp [hy, alphaRef_ne_zero]
  have hs₁ : s₁ ≠ 0#8 := h₁ ▸ hne _
  have hs₂ : s₂ ≠ 0#8 := h₂ ▸ hne _
  have hs₃ : s₃ ≠ 0#8 := h₃ ▸ hne _
  have hlocator : gdiv s₂ s₁ = alphaRef p := (gdiv_eq_iff hs₁).mpr <| by
    rw [h₁, h₂, alphaRef_two_mul, gfTimes_left_comm]
  have hvalue : gdiv (gfTimes s₁ s₁) s₂ = y := (gdiv_eq_iff hs₂).mpr <| by
    rw [h₁, h₂, alphaRef_two_mul]
    simp only [gfTimes_assoc, gfTimes_left_comm]
  have hlog : gfLog (alphaRef p) = p := gfLog_alphaRef (by omega)
  simp only [correctRs, gmul_eq_gfTimes, hlocator, hvalue, hlog, xorByte_eq]
  rw [if_neg fun hzero => hs₁ hzero.1, if_pos ⟨hs₁, hs₂, hs₃, hsq, hp⟩]

/-- Any other syndrome is uncorrectable (43_reed_solomon.md R300, R301). -/
theorem correctRs_of_not_isByteSyndrome (b : BitVec 96) {s₁ s₂ s₃ : Byte}
    (h : ∀ p y, p ≤ 11 → ¬ IsByteSyndrome p y s₁ s₂ s₃) : correctRs b s₁ s₂ s₃ = (b, ⟨96, 0, true⟩) := by
  unfold correctRs
  simp only [gmul_eq_gfTimes]
  split
  case isTrue hzero =>
    obtain ⟨rfl, rfl, rfl⟩ := hzero
    exact absurd (by simp [IsByteSyndrome]) (h 0 0#8 (Nat.zero_le 11))
  case isFalse =>
    split
    case isTrue hone =>
      obtain ⟨h₁, h₂, -, hsq, hp⟩ := hone
      exact absurd (isByteSyndrome_of_square h₁ h₂ hsq) (h _ _ hp)
    case isFalse => rfl

/-! #### Two byte errors -/

theorem gfTimes_self_xor (a b : Byte) : gfTimes (a ^^^ b) (a ^^^ b) = gfTimes a a ^^^ gfTimes b b := by
  calc gfTimes (a ^^^ b) (a ^^^ b)
      = gfTimes a a ^^^ gfTimes b b ^^^ (gfTimes a b ^^^ gfTimes a b) := by
        simp only [gfTimes_xor_left, gfTimes_xor_right, gfTimes_comm b a]
        ac_rfl
    _ = gfTimes a a ^^^ gfTimes b b := by rw [BitVec.xor_self, BitVec.xor_zero]

/-- How far the syndrome of the values `y`, `z` at the locators `a`, `b` is from the locator equation of R300. -/
theorem twoByte_square (y z a b : Byte) :
    gfTimes (gfTimes y a ^^^ gfTimes z b) (gfTimes y (gfTimes a (gfTimes a a)) ^^^ gfTimes z (gfTimes b (gfTimes b b))) =
      gfTimes (gfTimes y (gfTimes a a) ^^^ gfTimes z (gfTimes b b)) (gfTimes y (gfTimes a a) ^^^ gfTimes z (gfTimes b b)) ^^^
        gfTimes (gfTimes (gfTimes y z) (gfTimes a b)) (gfTimes (a ^^^ b) (a ^^^ b)) := by
  rw [gfTimes_self_xor, gfTimes_self_xor]
  simp only [gfTimes_xor_right, gfTimes_comm, gfTimes_left_comm]
  ac_rfl

/-- The syndrome of two byte errors is that of no single one (43_reed_solomon.md R304). -/
theorem not_isByteSyndrome_of_two {p q : Nat} {y z : Byte} (hpq : p ≠ q) (hp : p ≤ 11) (hq : q ≤ 11) (hy : y ≠ 0#8)
    (hz : z ≠ 0#8) (r : Nat) (w : Byte) :
    ¬ IsByteSyndrome r w (gfTimes y (alphaRef p) ^^^ gfTimes z (alphaRef q))
      (gfTimes y (alphaRef (2 * p)) ^^^ gfTimes z (alphaRef (2 * q)))
      (gfTimes y (alphaRef (3 * p)) ^^^ gfTimes z (alphaRef (3 * q))) := by
  intro h
  have hne : alphaRef p ≠ alphaRef q := fun heq => hpq <| by
    rw [← gfLog_alphaRef (show p < 255 by omega), heq, gfLog_alphaRef (by omega)]
  have hsq := h.square
  simp only [alphaRef_two_mul, alphaRef_three_mul, twoByte_square] at hsq
  have hzero := BitVec.xor_eq_zero_iff.mpr hsq
  rw [← BitVec.xor_assoc, BitVec.xor_self, BitVec.zero_xor] at hzero
  simp [hy, hz, alphaRef_ne_zero, hne] at hzero

end Sys2Proof.Machine
end

section
/-! The Reed-Solomon commands (43_reed_solomon.md R305 to R308). -/

namespace Sys2Proof.Machine

theorem rs129Enc_completes {s : State} {data : BitVec 72} (hdata : HoldsOperand s data) :
    Completes (exec (.rs129Enc 0#8 72#16) s) s (encodeRs data) 0 0 false := by
  rw [exec_of_holdsOperand (i := .rs129Enc 0#8 72#16) hdata rfl rfl]
  exact resultPlain_completes _ s (by decide)

theorem rs129Synd_completes {s : State} {b : BitVec 96} (hb : HoldsOperand s b) :
    Completes (exec (.rs129Synd 0#8 96#16) s) s (rootValue b 1 ++ rootValue b 2 ++ rootValue b 3) 0 0 false := by
  rw [exec_of_holdsOperand (i := .rs129Synd 0#8 96#16) hb rfl rfl]
  simp only [← rsSyndrome_eq_rootValue]
  exact resultPlain_completes (rsSyndromes b) s (by decide)

theorem rs129Check_completes {s : State} {b : BitVec 96} (hb : HoldsOperand s b) :
    Completes (exec (.rs129Check 0#8 96#16) s) s (BitVec.ofBool (rsPasses b)) 0 0 false := by
  rw [exec_of_holdsOperand (i := .rs129Check 0#8 96#16) hb rfl rfl]
  exact resultPlain_completes _ s (by decide)

/-- The operand of RS129.CORR: the word, and its syndrome byte by byte (43_reed_solomon.md R308). -/
theorem rs129Corr_exec {s : State} {b : BitVec 96} {s₁ s₂ s₃ : Byte} (h : HoldsOperand s (b ++ s₁ ++ s₂ ++ s₃)) :
    exec (.rs129Corr 0#8 120#16) s = .next (resultDecoded (b ++ s₁ ++ s₂ ++ s₃) (correctRs b s₁ s₂ s₃) s) := by
  have hword : slice (b ++ s₁ ++ s₂ ++ s₃) 0 96 = b := by
    rw [slice_append_of_le _ _ (by decide), slice_append_of_le _ _ (by decide), slice_append_left]
  have hfirst : byteAt (b ++ s₁ ++ s₂ ++ s₃) 12 = s₁ := by
    rw [byteAt_append_left _ _ (by decide), byteAt_append_left _ _ (by decide)]
    exact (byteAt_append_right (k := 12) b s₁ 0).trans (byteAt_byte s₁)
  have hsecond : byteAt (b ++ s₁ ++ s₂ ++ s₃) 13 = s₂ := by
    rw [byteAt_append_left _ _ (by decide)]
    exact (byteAt_append_right (k := 13) (b ++ s₁) s₂ 0).trans (byteAt_byte s₂)
  have hthird : byteAt (b ++ s₁ ++ s₂ ++ s₃) 14 = s₃ :=
    (byteAt_append_right (k := 14) (b ++ s₁ ++ s₂) s₃ 0).trans (byteAt_byte s₃)
  calc exec (.rs129Corr 0#8 120#16) s
      = .next (resultDecoded (b ++ s₁ ++ s₂ ++ s₃) (correctRs (slice (b ++ s₁ ++ s₂ ++ s₃) 0 96)
          (byteAt (b ++ s₁ ++ s₂ ++ s₃) 12) (byteAt (b ++ s₁ ++ s₂ ++ s₃) 13) (byteAt (b ++ s₁ ++ s₂ ++ s₃) 14)) s) :=
        exec_of_holdsOperand (i := .rs129Corr 0#8 120#16) h rfl rfl
    _ = .next (resultDecoded (b ++ s₁ ++ s₂ ++ s₃) (correctRs b s₁ s₂ s₃) s) := by
        rw [hword, hfirst, hsecond, hthird]

theorem rs129Corr_completes {s : State} {b : BitVec 96} {p : Nat} {y s₁ s₂ s₃ : Byte}
    (h : HoldsOperand s (b ++ s₁ ++ s₂ ++ s₃)) (hp : p ≤ 11) (hsyn : IsByteSyndrome p y s₁ s₂ s₃) :
    Completes (exec (.rs129Corr 0#8 120#16) s) s (b ^^^ byteError (11 - p) y) 96 (weight y) false := by
  have hcorrect := correctRs_of_isByteSyndrome b hp hsyn
  have hbounded := correctRs_bounded b s₁ s₂ s₃
  rw [hcorrect] at hbounded
  rw [rs129Corr_exec h, hcorrect]
  exact resultDecoded_completes _ s (by decide) hbounded rfl

theorem rs129Corr_completesUncorrectable {s : State} {b : BitVec 96} {s₁ s₂ s₃ : Byte}
    (h : HoldsOperand s (b ++ s₁ ++ s₂ ++ s₃)) (hsyn : ∀ p y, p ≤ 11 → ¬ IsByteSyndrome p y s₁ s₂ s₃) :
    CompletesUncorrectable (exec (.rs129Corr 0#8 120#16) s) s b 96 0 := by
  have hcorrect := correctRs_of_not_isByteSyndrome b hsyn
  have hbounded := correctRs_bounded b s₁ s₂ s₃
  rw [hcorrect] at hbounded
  rw [rs129Corr_exec h, hcorrect]
  exact resultDecoded_completesUncorrectable _ s (by decide) hbounded rfl

/-- The three syndrome bytes after the word, as SYND puts them out and as CORR reads them. -/
theorem append_syndromes (b : BitVec 96) (s₁ s₂ s₃ : Byte) :
    b ++ (s₁ ++ s₂ ++ s₃ : BitVec 24) = (b ++ s₁ ++ s₂ ++ s₃ : BitVec 120) := by
  rw [BitVec.append_assoc, BitVec.append_assoc, BitVec.append_assoc]
  rfl

/-- The values of a codeword with one wrong byte (43_reed_solomon.md R299). -/
theorem rootValue_oneError {c : BitVec 96} {i : Nat} (y : Byte) {j : Nat} (hc : rootValue c j = 0#8) (hi : i < 12) :
    rootValue (c ^^^ byteError i y) j = gfTimes y (alphaRef (j * (11 - i))) := by
  rw [rootValue_xor, hc, BitVec.zero_xor, rootValue_byteError y j hi]

/-- Settles O47. -/
theorem rsEncodeMakesACodeword : Obligations.RsEncodeMakesACodeword := fun _ data hdata =>
  ⟨_, rs129Enc_completes hdata, encodeRs_isRsCodeword data⟩

/-- Settles O48. -/
theorem rsSyndromeAndCheck : Obligations.RsSyndromeAndCheck := by
  intro s b hb
  refine ⟨rs129Synd_completes hb, _, rs129Check_completes hb, ?_⟩
  rw [← rsPasses_iff]
  cases rsPasses b <;> simp

/-- Settles O49: the zero syndrome is that of the value 0. -/
theorem rsCorrectAppliesTheGivenSyndrome : Obligations.RsCorrectAppliesTheGivenSyndrome := by
  intro s b s₁ s₂ s₃ h
  refine ⟨?_, fun p y hp _ h₁ h₂ h₃ => rs129Corr_completes h hp ⟨h₁, h₂, h₃⟩, rs129Corr_completesUncorrectable h⟩
  rintro rfl rfl rfl
  have hzero : IsByteSyndrome 0 0#8 0#8 0#8 0#8 := by simp [IsByteSyndrome]
  simpa using rs129Corr_completes h (Nat.zero_le 11) hzero

/-- Settles O50. -/
theorem rsCorrectsEverySingleByteError : Obligations.RsCorrectsEverySingleByteError := by
  intro s c i y ⟨hc₁, hc₂, hc₃⟩ hi hb
  refine ⟨_, rs129Synd_completes hb, fun s' h => ?_⟩
  have hsyn : IsByteSyndrome (11 - i) y (rootValue (c ^^^ byteError i y) 1) (rootValue (c ^^^ byteError i y) 2)
      (rootValue (c ^^^ byteError i y) 3) :=
    ⟨by rw [rootValue_oneError y hc₁ hi, Nat.one_mul], rootValue_oneError y hc₂ hi, rootValue_oneError y hc₃ hi⟩
  have hdone := rs129Corr_completes (append_syndromes _ _ _ _ ▸ h) (Nat.sub_le 11 i) hsyn
  have hplace : 11 - (11 - i) = i := by omega
  rwa [hplace, BitVec.xor_assoc, BitVec.xor_self, BitVec.xor_zero] at hdone

/-- Settles O51. -/
theorem rsDetectsEveryTwoByteError : Obligations.RsDetectsEveryTwoByteError := by
  intro s c i j y z ⟨hc₁, hc₂, hc₃⟩ hij hj hy hz hb
  refine ⟨_, rs129Synd_completes hb, fun s' h => ?_⟩
  refine rs129Corr_completesUncorrectable (append_syndromes _ _ _ _ ▸ h) fun r w _ => ?_
  have hi : i < 12 := by omega
  have hpq : 11 - i ≠ 11 - j := by omega
  simp only [rootValue_xor _ (byteError j z), rootValue_oneError y hc₁ hi, rootValue_oneError y hc₂ hi,
    rootValue_oneError y hc₃ hi, rootValue_byteError z _ hj, Nat.one_mul]
  exact not_isByteSyndrome_of_two hpq (Nat.sub_le 11 i) (Nat.sub_le 11 j) hy hz r w

end Sys2Proof.Machine
end

section
/-! Error statuses (60_exceptions.md R332 to R336): what ends a command with one is in the word alone, so every state takes the
same exception. -/

namespace Sys2Proof.Machine

theorem raise_zeroed (st : Status) (s : State) : Zeroed (raise st s) := ⟨rfl, rfl, rfl, rfl, rfl⟩

theorem raise_sameBeside (st : Status) (s : State) : SameBeside s (raise st s) := ⟨rfl, rfl, rfl, rfl, rfl, rfl, rfl⟩

/-- A command that ends with neither OK nor SLC_PENDING failed check 2 or 3 of R336, which read FLG and LEN alone. -/
theorem exec_raises {i : Instr} {s t : State} (h : exec i s = .next t)
    (ht : ¬ (t.status = 0x01#8 ∨ t.status = 0x02#8)) : ∃ st, ∀ s', exec i s' = .next (raise st s') := by
  cases hf : flagsReserved i.hasOdd i.flags with
  | true => exact ⟨_, fun s' => exec_of_reservedFlags s' hf⟩
  | false =>
    cases hl : lengthWrong i.requiredLen i.length with
    | true => exact ⟨_, fun s' => exec_of_lengthWrong s' hf hl⟩
    | false =>
      cases hm : missingInput s i.requiredLen with
      | some j => cases (exec_of_missingInput hf hl hm).symm.trans h
      | none =>
        cases (exec_of_checks hf hl hm).symm.trans h
        exact absurd (ruleOf_status i _ s) ht

/-- A host write to CMD that ends so failed one of the checks 1 to 3, which read the word alone. -/
theorem performWord_raises {w : Word} {s t : State} (h : performWord w s = .next t)
    (ht : ¬ (t.status = 0x01#8 ∨ t.status = 0x02#8)) :
    ∃ st, ∀ s', performWord w s' = .next (raise st { s' with cmd := w }) := by
  rcases decode_cases w with ⟨i, hd⟩ | hd
  · rw [performWord_of_decode s hd] at h
    obtain ⟨st, hraise⟩ := exec_raises h ht
    exact ⟨st, fun s' => (performWord_of_decode s' hd).trans (hraise _)⟩
  · exact ⟨_, fun s' => performWord_of_unlisted s' ((reservedOpcodesAreRejected w).mp hd)⟩

/-- A step that ends so takes the same exception from every state with the same pending accesses. -/
theorem step_raises {s t : State} {w : Word} {rest : List HostAccess} (hin : s.inbox = .writeCmd w :: rest)
    (h : step s = .next t) (ht : ¬ (t.status = 0x01#8 ∨ t.status = 0x02#8)) :
    ∃ st, ∀ s', s'.inbox = s.inbox → step s' = .next (raise st { s' with cmd := w, inbox := rest }) := by
  rw [step_of_pending hin] at h
  obtain ⟨st, hraise⟩ := performWord_raises h ht
  exact ⟨st, fun s' hs' => (step_of_pending (hs'.trans hin)).trans (hraise _)⟩

/-- Settles O7: the exception zeroes the results, and the same one is taken with any other DIN. -/
theorem errorStatusEffects : Obligations.ErrorStatusEffects := by
  intro s t w rest hin hstep hstatus
  have ht : ¬ (t.status = 0x01#8 ∨ t.status = 0x02#8) := by
    rcases hstatus with h | h | h <;> rw [h] <;> decide
  obtain ⟨st, hraise⟩ := step_raises hin hstep ht
  cases (hraise s rfl).symm.trans hstep
  exact ⟨raise_zeroed st _, raise_sameBeside st _, fun din written =>
    hraise { s with din := din, dinWritten := written } rfl⟩

end Sys2Proof.Machine
end
